-- ==== Sys2Proof/Word.lean ====
section
/-! DEFINITION. Words of the ASD's ports and the small enumerations every layer names (00_scope R7, 30_encoding R80 to
R88). -/

namespace Sys2Proof

/-- A byte is 8 bits (00_scope R7). -/
abbrev Byte := BitVec 8

/-- A physical address, ADDR_BITS = 32 (00_scope R6). -/
abbrev Addr := BitVec 32

/-- The data path of every port, DATA_BITS = 64 (00_scope R6). -/
abbrev Data := BitVec 64

/-- A device handler's id, `d_handler[7:0]` (30_encoding R84). -/
abbrev HandlerId := BitVec 8

/-- Direction of an access: `cmd[2]`, 0 READ, 1 WRITE (30_encoding R82). -/
inductive Dir where
  | read
  | write
  deriving DecidableEq, Repr

/-- An access width, a member of WIDTHS = 1, 2, 4, 8 bytes (20_memory R60, 30_encoding R88). -/
inductive Width where
  | w8
  | w16
  | w32
  | w64
  deriving DecidableEq, Repr

/-- Byte order: 1 big-endian, 0 little-endian (20_memory R52). -/
inductive ByteOrder where
  | little
  | big
  deriving DecidableEq, Repr

end Sys2Proof
end

