-- ==== Sys2Proof/Syntax.lean ====
section
/-! DEFINITION. The thirteen commands of 30_encoding R89 as one inductive, and the frame of port signals that presents
one (30_encoding R80 to R84). -/

namespace Sys2Proof

/-- The one behaviour of a Region (10_state R28). The byte order and the handler exist only for MMIO, "meaningful only
when kind is MMIO". -/
inductive RegionKind where
  | rom
  | ram
  | mmio (be : ByteOrder) (handler : HandlerId)
  deriving DecidableEq, Repr

/-- The commands, one constructor per row of spec/opcode_table.json. A write's value has the access's width
(`trunc_8n(wdata)`, 30_encoding R88). -/
inductive Instr where
  | read8 (addr : Addr)
  | read16 (addr : Addr)
  | read32 (addr : Addr)
  | read64 (addr : Addr)
  | write8 (addr : Addr) (value : BitVec 8)
  | write16 (addr : Addr) (value : BitVec 16)
  | write32 (addr : Addr) (value : BitVec 32)
  | write64 (addr : Addr) (value : BitVec 64)
  | resolve (dir : Dir) (width : Width) (addr : Addr)
  /-- The Region descriptor of 30_encoding R84. -/
  | map (name : String) (base : Addr) (size : BitVec 64) (kind : RegionKind)
  /-- The operands of 40_composition R114; `cpuOk` is the sampled input `cpu_ok`. -/
  | cpuinit (variant : BitVec 8) (be : ByteOrder) (vec : Bool) (cpuOk : Bool)
  /-- The boot image of 40_composition R115: its bytes, or none for NOT_FOUND (10_state R35). -/
  | seed (image : Option (List Byte))
  | start
  deriving DecidableEq, Repr

/-- The signals of one presented command: the command port, the sideband operands and the `cpu_ok` input that
CPUINIT samples (30_encoding R80, R83, R84). -/
structure Frame where
  cmd : BitVec 5
  addr : BitVec 32 := 0
  wdata : BitVec 64 := 0
  dKind : BitVec 2 := 0
  dBe : Bool := false
  dHandler : BitVec 8 := 0
  dName : String := ""
  imgFound : Bool := false
  imgLen : BitVec 64 := 0
  img : List Byte := []
  cpuOk : Bool := false
  deriving DecidableEq, Repr

/-- Why a frame presents no command. -/
inductive DecodeError where
  /-- Command words 0x14 to 0x1F (30_encoding R90, 93_implementation_defined V1). -/
  | reservedCommand (cmd : BitVec 5)
  /-- MAP with `d_kind` = 3 (30_encoding R90, 93_implementation_defined V2). -/
  | reservedKind
  /-- SEED with `img_found` = 1 and fewer image bytes presented than `img_len`: not a signal the port can carry
  (30_encoding R83 gives `img[0..img_len-1]`). DESIGN CHOICE (log entry 18), safe. -/
  | imageShort
  deriving DecidableEq, Repr

end Sys2Proof
end

