-- ==== Sys2Proof/WellFormed.lean ====
section
/-! DEFINITION. Which terms of `Instr` a frame can present: the operands' types carry every width but the image's
length, which is the 64-bit `img_len` (30_encoding R83). -/

namespace Sys2Proof

/-- The one condition the types leave: an image is no longer than `img_len[63:0]` can say (30_encoding R83). -/
def Instr.wellFormed : Instr → Bool
  | .read8 _ | .read16 _ | .read32 _ | .read64 _ => true
  | .write8 _ _ | .write16 _ _ | .write32 _ _ | .write64 _ _ => true
  | .resolve _ _ _ | .map _ _ _ _ | .cpuinit _ _ _ _ | .start => true
  | .seed none => true
  | .seed (some image) => decide (image.length < 2 ^ 64)

end Sys2Proof
end

