-- ==== Sys2Proof/Decode.lean ====
section
/-! DEFINITION. The decoder of a presented frame (30_encoding R81 to R92), total, rejecting by name, and the encoder
beside it. `cmd[4:0]` alone selects the command (R92). -/

namespace Sys2Proof

/-- Direction from `cmd[2]` (30_encoding R82). -/
def Dir.ofBit (b : Bool) : Dir := if b then .write else .read

/-- `cmd[2]` of a direction (30_encoding R82). -/
def Dir.bit : Dir → BitVec 1
  | .read => 0#1
  | .write => 1#1

/-- Width from the code `sz` (30_encoding R88). -/
def Width.ofCode (sz : BitVec 2) : Width :=
  match sz with
  | 0b00#2 => .w8
  | 0b01#2 => .w16
  | 0b10#2 => .w32
  | 0b11#2 => .w64

/-- The code `sz` of a width (30_encoding R88). -/
def Width.code : Width → BitVec 2
  | .w8 => 0b00#2
  | .w16 => 0b01#2
  | .w32 => 0b10#2
  | .w64 => 0b11#2

/-- Byte order from its bit, 1 big-endian (20_memory R52). -/
def ByteOrder.ofBit (b : Bool) : ByteOrder := if b then .big else .little

/-- The bit of a byte order (20_memory R52). -/
def ByteOrder.bit : ByteOrder → Bool
  | .little => false
  | .big => true

/-- Class ACCESS, format ACC (30_encoding R82, R89). -/
def decodeAccess (f : Frame) : Instr :=
  match Dir.ofBit (f.cmd.getLsbD 2), Width.ofCode (f.cmd.extractLsb' 0 2) with
  | .read, .w8 => .read8 f.addr
  | .read, .w16 => .read16 f.addr
  | .read, .w32 => .read32 f.addr
  | .read, .w64 => .read64 f.addr
  | .write, .w8 => .write8 f.addr (f.wdata.extractLsb' 0 8)
  | .write, .w16 => .write16 f.addr (f.wdata.extractLsb' 0 16)
  | .write, .w32 => .write32 f.addr (f.wdata.extractLsb' 0 32)
  | .write, .w64 => .write64 f.addr f.wdata

/-- The Region kind of a MAP descriptor (30_encoding R84): `d_be` and `d_handler` are ignored unless the kind is
MMIO; kind code 3 is reserved (R90). -/
def decodeKind (f : Frame) : Option RegionKind :=
  match f.dKind with
  | 0b00#2 => some .rom
  | 0b01#2 => some .ram
  | 0b10#2 => some (.mmio (ByteOrder.ofBit f.dBe) f.dHandler)
  | 0b11#2 => none

/-- Class COMPOSE, format CMP (30_encoding R83, R89). -/
def decodeCompose (f : Frame) : Except DecodeError Instr :=
  match f.cmd.extractLsb' 0 3 with
  | 0b000#3 =>
    match decodeKind f with
    | some k => .ok (.map f.dName f.addr f.wdata k)
    | none => .error .reservedKind
  | 0b001#3 =>
    .ok (.cpuinit (f.wdata.extractLsb' 0 8) (ByteOrder.ofBit (f.wdata.getLsbD 8)) (f.wdata.getLsbD 9) f.cpuOk)
  | 0b010#3 =>
    if f.imgFound then
      if f.imgLen.toNat ≤ f.img.length then .ok (.seed (some (f.img.take f.imgLen.toNat)))
      else .error .imageShort
    else .ok (.seed none)
  | 0b011#3 => .ok .start
  | _ => .error (.reservedCommand f.cmd)

/-- The decoder: the command a frame presents, or why it presents none (30_encoding R81, R89, R90). -/
def decode (f : Frame) : Except DecodeError Instr :=
  match f.cmd.extractLsb' 3 2 with
  | 0b00#2 => .ok (decodeAccess f)
  | 0b01#2 => .ok (.resolve (Dir.ofBit (f.cmd.getLsbD 2)) (Width.ofCode (f.cmd.extractLsb' 0 2)) f.addr)
  | 0b10#2 => decodeCompose f
  | 0b11#2 => .error (.reservedCommand f.cmd)

/-- `d_kind` of a Region kind (30_encoding R84). -/
def RegionKind.code : RegionKind → BitVec 2
  | .rom => 0b00#2
  | .ram => 0b01#2
  | .mmio _ _ => 0b10#2

/-- `d_be` of a Region kind, 0 where it is ignored (30_encoding R84). -/
def RegionKind.beBit : RegionKind → Bool
  | .mmio be _ => be.bit
  | _ => false

/-- `d_handler` of a Region kind, 0 where it is ignored (30_encoding R84). -/
def RegionKind.handlerBits : RegionKind → HandlerId
  | .mmio _ h => h
  | _ => 0#8

/-- The encoder: the frame that presents a well-formed command, its ignored signals 0 (30_encoding R82 to R84, R89). -/
def encode : Instr → Frame
  | .read8 a => { cmd := 0b00000#5, addr := a }
  | .read16 a => { cmd := 0b00001#5, addr := a }
  | .read32 a => { cmd := 0b00010#5, addr := a }
  | .read64 a => { cmd := 0b00011#5, addr := a }
  | .write8 a v => { cmd := 0b00100#5, addr := a, wdata := v.setWidth 64 }
  | .write16 a v => { cmd := 0b00101#5, addr := a, wdata := v.setWidth 64 }
  | .write32 a v => { cmd := 0b00110#5, addr := a, wdata := v.setWidth 64 }
  | .write64 a v => { cmd := 0b00111#5, addr := a, wdata := v }
  | .resolve d w a => { cmd := 0b01#2 ++ d.bit ++ w.code, addr := a }
  | .map name base size kind =>
    { cmd := 0b10000#5, addr := base, wdata := size, dKind := kind.code, dBe := kind.beBit,
      dHandler := kind.handlerBits, dName := name }
  | .cpuinit variant be vec cpuOk =>
    { cmd := 0b10001#5
      wdata := (BitVec.ofBool vec ++ BitVec.ofBool be.bit ++ variant).setWidth 64
      cpuOk := cpuOk }
  | .seed none => { cmd := 0b10010#5 }
  | .seed (some image) =>
    { cmd := 0b10010#5, imgFound := true, imgLen := BitVec.ofNat 64 image.length, img := image }
  | .start => { cmd := 0b10011#5 }

/-- The frame of a command whose table bits are `w`: the command word is bits 4..0 (30_encoding R81, R89); every
operand signal, which the table gives no bits, is 0 (log entry 19). -/
def Frame.ofTableWord (nbits w : Nat) : Frame := { cmd := BitVec.ofNat 5 (w % 2 ^ nbits) }

/-- The command the decoder reads from a table row's word (log entry 19). -/
def decodeTableWord (nbits w : Nat) : Option Instr :=
  match decode (Frame.ofTableWord nbits w) with
  | .ok i => some i
  | .error _ => none

end Sys2Proof
end

