-- ==== Sys2Proof/Config.lean ====
section
/-! DEFINITION. What an implementation fixes and the spec leaves OPEN (00_scope R6, 92_eei_decisions "Open
parameters"): opaque constants, so that nothing can be proved of their values. None of them is state. -/

namespace Sys2Proof

/-- The opaque state type of a device behind a handler (10_state R31). Plain data: a bank of 64-bit words of any
length. DESIGN CHOICE (log entry 12), safe. -/
abbrev DevState := List (BitVec 64)

/-- A Dispatch Handler: the capability pair of 43_mmio_dispatch R176 over its device state. It is total, it cannot
fail and it cannot issue an access of its own (R181, R189), by its type. -/
structure Handler where
  /-- Whether the handler has no device state and may so serve several Regions (40_composition R113). -/
  stateless : Bool
  /-- Which offsets the device implements (43_mmio_dispatch R185). -/
  knows : BitVec 32 → Bool
  /-- `dev_read`: new device state and the 64-bit word returned. -/
  read : DevState → BitVec 32 → Width → DevState × Data
  /-- `dev_write`: new device state. -/
  write : DevState → BitVec 32 → Width → Data → DevState

/-- `strap_cfg[65:0]` as the platform sets it before the first reset (10_state R24: "strap; OPEN"). Free value,
DESIGN CHOICE (log entry 6), safe: a claim holds for every value. -/
opaque Config.straps : BitVec 66

/-- RAM_INIT (92_eei_decisions D14): the byte at an offset of the RAM Region of an index, for the reset of a given
count, until it is written. Free value, DESIGN CHOICE (log entry 8), safe. -/
opaque Config.ramInit (epoch region offset : Nat) : Byte

/-- HANDLER(h) for the ids other than 0 (92_eei_decisions D26): the handler bound to the id, or none. Id 0 is the
stub whatever this says. DESIGN CHOICE (log entry 11), safe. -/
opaque Config.handler : HandlerId → Option Handler

/-- DEV[h] right after a reset (10_state R36 gives none). Free value, DESIGN CHOICE (log entry 12), safe. -/
opaque Config.devInit (epoch handler : Nat) : DevState

/-- CPU_VARIANT of this system-on-chip (92_eei_decisions D22), an operand of COMPOSE_SOC only. -/
opaque Config.cpuVariant : BitVec 8

/-- CPU_VEC of this system-on-chip (92_eei_decisions D22), an operand of COMPOSE_SOC only. -/
opaque Config.cpuVec : Bool

/-- RESET_VECTOR, the CPU component's first fetch (70_reset_and_hazards R231): not state of the ASD, read by no
definition of the model. -/
opaque Config.resetVector : Addr

end Sys2Proof
end

