-- ==== Sys2Proof/Machine/Straps.lean ====
section
/-! DEFINITION. CFG, the policy straps, and their sampling at reset (10_state R24). -/

namespace Sys2Proof.Machine

/-- A policy strap's value: 0 DEGRADE, 1 ABORT (10_state R24). -/
inductive Policy where
  | degrade
  | abort
  deriving DecidableEq, Repr

/-- CFG (10_state R24): INV_POLICY, UNMAPPED_POLICY, UNMAPPED_FILL. No command writes it. -/
structure Cfg where
  invPolicy : Policy
  unmappedPolicy : Policy
  unmappedFill : BitVec 64
  deriving DecidableEq, Repr

/-- A policy from its strap bit (10_state R24). -/
def Policy.ofBit (b : Bool) : Policy := if b then .abort else .degrade

/-- `strap_cfg[65:0]` becomes CFG (10_state R24, 30_encoding R80): INV_POLICY = CFG[0], UNMAPPED_POLICY = CFG[1],
UNMAPPED_FILL = CFG[65:2]. -/
def Cfg.ofStraps (straps : BitVec 66) : Cfg :=
  { invPolicy := Policy.ofBit (straps.getLsbD 0)
    unmappedPolicy := Policy.ofBit (straps.getLsbD 1)
    unmappedFill := straps.extractLsb' 2 64 }

end Sys2Proof.Machine
end

