-- ==== Sys2Proof/Machine/State.lean ====
section
/-! DEFINITION. The whole state of one ASD (10_state R20), its reset value (10_state R36), and the reasons a step can
stop. State is plain data. -/

namespace Sys2Proof.Machine

/-- PHASE (10_state R26). -/
inductive Phase where
  | build
  | loaded
  | run
  | failed
  | aborted
  deriving DecidableEq, Repr

/-- The error codes 0 to 7 (30_encoding R95); 8 to 15 are never produced (93_implementation_defined V6). -/
inductive ErrorCode where
  | none
  | overlap
  | unmappedAccess
  | outOfBounds
  | readOnlyViolation
  | imageNotFound
  | imageTooLarge
  | cpuConstruction
  deriving DecidableEq, Repr

/-- CAUSE (10_state R27): the error that ended the machine. -/
structure Cause where
  code : ErrorCode := .none
  addr : BitVec 32 := 0
  size : BitVec 64 := 0
  dir : Dir := .read
  region : Option Nat := Option.none
  deriving DecidableEq, Repr

/-- An entry of the region table (10_state R28). -/
structure Region where
  name : String
  base : Addr
  size : BitVec 64
  kind : RegionKind
  deriving DecidableEq, Repr

/-- The backing store of a storage Region: (offset, byte) pairs in one canonical form, offsets strictly rising and no
entry equal to what an unlisted offset holds (10_state R30; log entries 8 and 9). -/
abbrev Memory := List Host.Cell

/-- A record of DIAG (30_encoding R87). -/
structure DiagRecord where
  device : String
  offset : BitVec 32
  dir : Dir
  deriving DecidableEq, Repr

/-- What RESOLVE reports with `hit = 1`: `ridx` and `roff` (30_encoding R85). -/
structure Hit where
  ridx : Nat
  roff : BitVec 32
  deriving DecidableEq, Repr

/-- The response port (30_encoding R85); `hit = 0` is `none`. -/
structure Response where
  err : ErrorCode := .none
  rdata : BitVec 64 := 0
  hit : Option Hit := Option.none
  deriving DecidableEq, Repr

/-- One call on the device port (30_encoding R86): `wdata` is 0 for a read, `rdata`, what the device returned, is 0
for a write. -/
structure DevCall where
  handler : HandlerId
  dir : Dir
  width : Width
  offset : BitVec 32
  wdata : BitVec 64 := 0
  rdata : BitVec 64 := 0
  deriving DecidableEq, Repr

/-- What CPUINIT drives on the CPU control port (30_encoding R80, 40_composition R114). -/
structure CpuDrive where
  variant : BitVec 8
  be : ByteOrder
  vec : Bool
  deriving DecidableEq, Repr

/-- What the last command drove on the ASD's output ports (30_encoding R80; log entry 3). -/
structure Output where
  response : Option Response := Option.none
  devCalls : List DevCall := []
  cpuDrive : Option CpuDrive := Option.none
  cpuStart : Bool := false
  deriving DecidableEq, Repr

/-- One thing the outside hands the ASD (70_reset_and_hazards R240): a presented command, or `rst` with the straps it
samples. -/
inductive Stimulus where
  | command (f : Frame)
  | rst (straps : BitVec 66)
  deriving DecidableEq, Repr

/-- The state of one ASD (10_state R20). NREG is the length of `rt`; IRQ_TABLE is the constant `irqTable`. -/
structure State where
  /-- CFG (10_state R24). -/
  cfg : Cfg
  /-- CPU_VARIANT (10_state R25). -/
  cpuVariant : BitVec 8
  /-- CPU_BE (10_state R25). -/
  cpuBe : ByteOrder
  /-- CPU_VEC (10_state R25). -/
  cpuVec : Bool
  /-- CPU_READY (10_state R25). -/
  cpuReady : Bool
  /-- PHASE (10_state R26). -/
  phase : Phase
  /-- CAUSE (10_state R27). -/
  cause : Cause
  /-- RT (10_state R28). -/
  rt : List Region
  /-- STORE[i], in step with `rt`, empty for an MMIO entry (10_state R30). -/
  stores : List Memory
  /-- DEV[h] of the handlers written since reset, keys strictly rising (10_state R31). -/
  dev : List (Nat × DevState)
  /-- DIAG (10_state R32), oldest first. -/
  diag : List DiagRecord
  /-- The MODEL's own counter of resets, an argument of the free values (log entry 10). -/
  epoch : Nat
  /-- The output ports (30_encoding R80; log entry 3). -/
  out : Output
  /-- The MODEL's own list of what the outside will hand the ASD, in order (log entry 1). -/
  input : List Stimulus
  deriving DecidableEq, Repr

/-- Why the machine stops with a fault. -/
inductive Fault where
  /-- Raised by an access command that resolves to an MMIO entry whose handler id has no handler, which 10_state R29
  (d) excludes in every reachable state. Safe: such a state has no step. -/
  | unboundHandler (handler : HandlerId)
  deriving DecidableEq, Repr

/-- Why a command is refused: no step, no state change, no response (00_scope R9 outcome 4, 30_encoding R90). Every
one is safe: a claim about a run that holds one is unprovable. -/
inductive Refusal where
  /-- An instruction without a meaning yet; raised by no arm of `exec`. -/
  | notModelled (mnemonic : String)
  /-- The presented frame is no command (30_encoding R90); raised by `step`. -/
  | undecodable (e : DecodeError)
  /-- A command not accepted in the present phase (10_state R26); raised by every command. -/
  | notAccepted (phase : Phase)
  /-- MAP of an MMIO Region with a handler id to which no handler is bound (30_encoding R90, 40_composition R112). -/
  | notBound (handler : HandlerId)
  /-- MAP of an MMIO Region that overlaps nothing, with a handler that has device state and already serves a Region
  (40_composition R113; log entry 14). -/
  | notShareable (handler : HandlerId)
  /-- A second CPUINIT (40_composition R114). -/
  | cpuAlreadyReady
  /-- SEED with no ROM entry at LOAD_ADDR (40_composition R115). -/
  | noSeedTarget
  /-- START with CPU_READY = 0 (40_composition R117). -/
  | cpuNotReady
  deriving DecidableEq, Repr

/-- The state after `rst` (10_state R36, 70_reset_and_hazards R230): CFG sampled from the straps, all else discarded.
CPU_VARIANT, CPU_BE and CPU_VEC are unspecified until CPUINIT: 0, DESIGN CHOICE (log entry 7), unsafe. The count of
resets and what the outside will still present are the caller's. -/
def State.afterReset (straps : BitVec 66) (epoch : Nat) (input : List Stimulus) : State :=
  { cfg := Cfg.ofStraps straps
    cpuVariant := 0
    cpuBe := .little
    cpuVec := false
    cpuReady := false
    phase := .build
    cause := {}
    rt := []
    stores := []
    dev := []
    diag := []
    epoch := epoch
    out := {}
    input := input }

/-- The machine right after reset, with nothing presented yet (10_state R36). -/
def State.reset : State := State.afterReset Config.straps 0 []

/-- NREG (10_state R28). -/
def State.nreg (s : State) : Nat := s.rt.length

end Sys2Proof.Machine
end

