-- ==== Sys2Proof/Machine/Memory.lean ====
section
/-! DEFINITION. Sparse data by key, and over it the backing stores of the storage Regions (10_state R30, R36). -/

namespace Sys2Proof.Machine

/-- The value listed under a key. -/
def Assoc.get? {α : Type} : List (Nat × α) → Nat → Option α
  | [], _ => none
  | (k, v) :: rest, key => if k = key then some v else Assoc.get? rest key

/-- List a value under a key, keeping the keys rising. -/
def Assoc.put {α : Type} : List (Nat × α) → Nat → α → List (Nat × α)
  | [], key, v => [(key, v)]
  | (k, w) :: rest, key, v =>
    if key < k then (key, v) :: (k, w) :: rest
    else if key = k then (key, v) :: rest
    else (k, w) :: Assoc.put rest key v

/-- Take a key out. -/
def Assoc.del {α : Type} : List (Nat × α) → Nat → List (Nat × α)
  | [], _ => []
  | (k, w) :: rest, key => if key = k then rest else (k, w) :: Assoc.del rest key

/-- The keys rise strictly. -/
abbrev Assoc.Sorted {α : Type} (l : List (Nat × α)) : Prop := (l.map Prod.fst).Pairwise (· < ·)

/-- What an unlisted offset of a store holds: 0x00 in a ROM (10_state R36), nothing known in a RAM, so that a read of
it is the free value RAM_INIT (log entries 8 and 9). An MMIO entry has no store. -/
def Memory.unlisted : RegionKind → Option Byte
  | .rom => some 0x00#8
  | .ram => none
  | .mmio _ _ => none

/-- STORE[i][o] (10_state R30): the byte at an offset of the store of Region `i` of kind `k`. -/
def Memory.byte (epoch i : Nat) (k : RegionKind) (m : Memory) (o : Nat) : Byte :=
  match Assoc.get? m o with
  | some b => b
  | none =>
    match Memory.unlisted k with
    | some b => b
    | none => Config.ramInit epoch i o

/-- `STORE[i][o] <- b` (00_scope R8), keeping the canonical form. -/
def Memory.poke (k : RegionKind) (m : Memory) (o : Nat) (b : Byte) : Memory :=
  if Memory.unlisted k = some b then Assoc.del m o else Assoc.put m o b

/-- Store bytes at ascending offsets from `o` (40_composition R115, 42_access R150). -/
def Memory.pokeAll (k : RegionKind) (m : Memory) (o : Nat) : List Byte → Memory
  | [] => m
  | b :: bs => Memory.pokeAll k (Memory.poke k m o b) (o + 1) bs

/-- The canonical form of the store of a Region of kind `k` and size `size`: offsets strictly rising and inside the
Region, no entry equal to what an unlisted offset holds (10_state R29 (d), R30). -/
abbrev Memory.wf (k : RegionKind) (size : Nat) (m : Memory) : Prop :=
  Assoc.Sorted m ∧ ∀ c ∈ m, Memory.unlisted k ≠ some c.2 ∧ c.1 < size

/-- STORE[i] (10_state R30). An index without a store, which no reachable state has, reads as an empty one (log
entry 23). -/
def State.store (s : State) (i : Nat) : Memory := (s.stores[i]?).getD []

/-- STORE[i][o] of a Region of kind `k`. -/
def State.byteAt (s : State) (i : Nat) (k : RegionKind) (o : Nat) : Byte :=
  Memory.byte s.epoch i k (s.store i) o

/-- `STORE[i][o .. o+n-1]` (42_access R149). -/
def State.bytesAt (s : State) (i : Nat) (k : RegionKind) (o n : Nat) : List Byte :=
  (List.range n).map fun j => s.byteAt i k (o + j)

/-- Replace STORE[i]. -/
def State.setStore (s : State) (i : Nat) (m : Memory) : State := { s with stores := s.stores.set i m }

/-- DEV[h]: the device state of handler `h` (10_state R31); before its first change the free value
`Config.devInit`. -/
def State.devState (s : State) (h : HandlerId) : DevState :=
  (Assoc.get? s.dev h.toNat).getD (Config.devInit s.epoch h.toNat)

/-- `DEV[h] <- d` (43_mmio_dispatch R177, R178). -/
def State.setDev (s : State) (h : HandlerId) (d : DevState) : State :=
  { s with dev := Assoc.put s.dev h.toNat d }

end Sys2Proof.Machine
end

