-- ==== Sys2Proof/Machine/Operands.lean ====
section
/-! DEFINITION. Operand assembly: widths, values and bytes, byte order, the adapter (30_encoding R88, 20_memory R51 to
R55, 43_mmio_dispatch R179, R184). -/

namespace Sys2Proof

/-- `n = 2^sz` (30_encoding R88). -/
def Width.bytes : Width → Nat
  | .w8 => 1
  | .w16 => 2
  | .w32 => 4
  | .w64 => 8

namespace Machine

/-- `trunc_8n(v)` as a value of the data path, bits above `8n - 1` zero (00_scope R7, 30_encoding R88). -/
def truncTo (w : Width) (v : Data) : Data := BitVec.ofNat 64 (v.toNat % 256 ^ w.bytes)

/-- The value of a byte sequence whose first byte is least significant (20_memory R52, order 0). -/
def bytesToNat : List Byte → Nat
  | [] => 0
  | b :: bs => b.toNat + 256 * bytesToNat bs

/-- The `n` bytes of a value, least significant first (20_memory R52, order 0). -/
def natToBytes : Nat → Nat → List Byte
  | 0, _ => []
  | n + 1, v => BitVec.ofNat 8 v :: natToBytes n (v / 256)

/-- `assemble(e, B, n)` (20_memory R52), on the data path. -/
def assemble (e : ByteOrder) (bs : List Byte) : Data :=
  match e with
  | .little => BitVec.ofNat 64 (bytesToNat bs)
  | .big => BitVec.ofNat 64 (bytesToNat bs.reverse)

/-- `split(e, v, n)` (20_memory R52). -/
def split (e : ByteOrder) (v : Data) (w : Width) : List Byte :=
  match e with
  | .little => natToBytes w.bytes v.toNat
  | .big => (natToBytes w.bytes v.toNat).reverse

/-- `bswap(v, n)` (20_memory R52). -/
def bswap (v : Data) (w : Width) : Data := assemble .little (split .big v w)

/-- `adapt(n, x, cpu_be, be)` (43_mmio_dispatch R179). -/
def adapt (w : Width) (x : Data) (cpuBe be : ByteOrder) : Data := assemble be (split cpuBe x w)

end Machine

end Sys2Proof
end

