-- ==== Sys2Proof/Machine/Flags.lean ====
section
/-! DEFINITION. The ASD has no flags (10_state R23): the outcome of a command is carried by its response
(30_encoding R85) and, when the machine ends, by PHASE and CAUSE. Here are the numbers of the error codes and the
driving of the output ports. -/

namespace Sys2Proof.Machine

/-- `err[3:0]` and CAUSE.code (30_encoding R95). -/
def ErrorCode.toBits : ErrorCode → BitVec 4
  | .none => 0
  | .overlap => 1
  | .unmappedAccess => 2
  | .outOfBounds => 3
  | .readOnlyViolation => 4
  | .imageNotFound => 5
  | .imageTooLarge => 6
  | .cpuConstruction => 7

/-- Drive the output ports for this command; what the command before it drove is gone. -/
def State.drive (s : State) (o : Output) : State := { s with out := o }

/-- Respond, with no other port driven (30_encoding R85). -/
def State.respond (s : State) (r : Response) : State := s.drive { response := some r }

end Sys2Proof.Machine
end

