-- ==== Sys2Proof/Machine/Ops.lean ====
section
/-! DEFINITION. Shared operations: region select (41_resolve R130, R131), `as_map` (40_composition R111), the handlers
bound to ids (43_mmio_dispatch R185 to R187), and the two sequences that end the machine (60_exceptions R211, R212).
There is no return from them (60_exceptions R214): reset, `State.afterReset`, is the only way out. -/

namespace Sys2Proof.Machine

/-- `base + size`, over the naturals (00_scope R7). -/
def Region.limit (r : Region) : Nat := r.base.toNat + r.size.toNat

/-- `contains(f, a, n)` (41_resolve R130). -/
def contains (r : Region) (a : Addr) (w : Width) : Bool :=
  decide (r.base.toNat ≤ a.toNat) && decide (a.toNat + w.bytes ≤ r.limit)

/-- The result of `resolve`: the index, the owning Region and the in-Region offset, or unmapped (41_resolve R131). -/
inductive Resolution where
  | mapped (index : Nat) (region : Region) (offset : Nat)
  | unmapped
  deriving DecidableEq, Repr

/-- The search of `resolve` from index `i` on (41_resolve R131). -/
def resolveFrom (i : Nat) (a : Addr) (w : Width) : List Region → Resolution
  | [] => .unmapped
  | r :: rest => if contains r a w then .mapped i r (a.toNat - r.base.toNat) else resolveFrom (i + 1) a w rest

/-- `resolve(a, n, dir)` (41_resolve R131); its result does not depend on `dir` (R134). -/
def resolve (rt : List Region) (a : Addr) (w : Width) (_dir : Dir) : Resolution := resolveFrom 0 a w rt

/-- `intersects(e, f)` (40_composition R111). -/
def intersects (e f : Region) : Bool := decide (max e.base.toNat f.base.toNat < min e.limit f.limit)

/-- The lowest index from `i` on whose entry intersects `e` (40_composition R111). -/
def overlapFrom (i : Nat) (e : Region) : List Region → Option Nat
  | [] => none
  | f :: rest => if intersects e f then some i else overlapFrom (i + 1) e rest

/-- `as_map(RT, e)` (40_composition R111): the new table, or the lowest index that intersects. -/
def asMap (rt : List Region) (e : Region) : Except Nat (List Region) :=
  match overlapFrom 0 e rt with
  | some j => .error j
  | none => .ok (rt ++ [e])

/-- The handler bound to an id: 0 is the stub (30_encoding R84, 92_eei_decisions D26), which knows no offset and has no
device state (43_mmio_dispatch R186, R187). -/
def stubHandler : Handler :=
  { stateless := true
    knows := fun _ => false
    read := fun d _ _ => (d, 0)
    write := fun d _ _ _ => d }

/-- The handlers of this machine: the stub under id 0, HANDLER(h) under the others (92_eei_decisions D26). -/
def boundHandler (h : HandlerId) : Option Handler := if h = 0#8 then some stubHandler else Config.handler h

/-- `diag(rec)`: append a record to DIAG (00_scope R8, 10_state R32). -/
def State.logDiag (s : State) (d : DiagRecord) : State := { s with diag := s.diag ++ [d] }

/-- The one sequence that ends the machine, shared by `fail` and `abort`: CAUSE, PHASE, a response that carries the
code and no data; nothing else changes (60_exceptions R211, R212, R213). -/
def endMachine (phase : Phase) (cause : Cause) (s : State) : State :=
  { s with cause := cause, phase := phase, out := { response := some { err := cause.code } } }

/-- `fail(code, info)`: the startup failure sequence (60_exceptions R211). -/
def startupFail (cause : Cause) (s : State) : State := endMachine .failed cause s

/-- `abort(code, info)`: the runtime abort sequence (60_exceptions R212). -/
def runtimeAbort (cause : Cause) (s : State) : State := endMachine .aborted cause s

end Sys2Proof.Machine
end

