-- ==== Sys2Proof/Machine/Soc.lean ====
section
/-! DEFINITION. The configuration of this system-on-chip: LOAD_ADDR, ROM_SIZE, REGION_TABLE, and the pseudo-instructions
that use them (00_scope R6, 20_memory R63, 30_encoding R94, 42_access R161). The table is a configuration, not part of
the semantics of any command (20_memory R63); its numbers are the source's, unaudited (log entry 27). -/

namespace Sys2Proof.Machine

/-- LOAD_ADDR, where SEED looks for its ROM (00_scope R6, 92_eei_decisions D15). -/
def loadAddr : Addr := 0xFFFF0000#32

/-- ROM_SIZE (00_scope R6). -/
def romSize : BitVec 64 := 0x2000#64

/-- The kind of every MMIO Region of this system-on-chip: big-endian, the stub (43_mmio_dispatch R190). -/
def stubWindow : RegionKind := .mmio .big 0#8

/-- REGION_TABLE as the thirteen MAP commands, in the order of 20_memory R63. -/
def socRegions : List Instr :=
  [.map "MEM1" 0x00000000#32 0x01800000#64 .ram,
   .map "MEM2" 0x10000000#32 0x04000000#64 .ram,
   .map "STORAGE" 0x0D010000#32 0x200#64 stubWindow,
   .map "CRYPTO_A" 0x0D020000#32 0x200#64 stubWindow,
   .map "CRYPTO_B" 0x0D030000#32 0x200#64 stubWindow,
   .map "PERIPH0" 0x0D040000#32 0x200#64 stubWindow,
   .map "PERIPH1" 0x0D050000#32 0x200#64 stubWindow,
   .map "PERIPH2" 0x0D060000#32 0x200#64 stubWindow,
   .map "PERIPH3" 0x0D070000#32 0x200#64 stubWindow,
   .map "SRAM" 0x0D400000#32 0x00020000#64 .ram,
   .map "SOC_CTRL" 0x0D800000#32 0x220#64 stubWindow,
   .map "MEM_CTRL" 0x0D8B4200#32 0xD0#64 stubWindow,
   .map "BOOT_ROM" loadAddr romSize .rom]

/-- `COMPOSE_SOC <image>` (30_encoding R94), for a CPU component that reports `cpu_ok`. -/
def composeSoc (image : Option (List Byte)) (cpuOk : Bool) : List Instr :=
  socRegions ++ [.cpuinit Config.cpuVariant .big Config.cpuVec cpuOk, .seed image, .start]

/-- READ8, READ16, READ32 or READ64: the command `MemRead(addr, n)` is (42_access R161). -/
def readCommand (w : Width) (a : Addr) : Instr :=
  match w with
  | .w8 => .read8 a
  | .w16 => .read16 a
  | .w32 => .read32 a
  | .w64 => .read64 a

/-- `FETCHn a` is `READn a`: an instruction fetch is a read (30_encoding R94, 20_memory R70). -/
def fetchCommand (w : Width) (a : Addr) : Instr := readCommand w a

/-- WRITE8, WRITE16, WRITE32 or WRITE64 of the low bits of a value: the command `MemWrite(addr, n, v)` is (42_access
R161). -/
def writeCommand (w : Width) (a : Addr) (v : Data) : Instr :=
  match w with
  | .w8 => .write8 a (v.setWidth 8)
  | .w16 => .write16 a (v.setWidth 16)
  | .w32 => .write32 a (v.setWidth 32)
  | .w64 => .write64 a v

end Sys2Proof.Machine
end

