-- ==== Sys2Proof/Machine/Compose.lean ====
section
/-! DEFINITION. The build-time commands MAP, CPUINIT, SEED, START (40_composition R110 to R118). -/

namespace Sys2Proof.Machine

/-- The region table of this system-on-chip after its thirteen MAP commands (20_memory R63). -/
def socTable : List Region :=
  socRegions.filterMap fun i =>
    match i with
    | .map name base size kind => some { name := name, base := base, size := size, kind := kind }
    | _ => none

/-- Whether an MMIO entry of the table already names the handler id (40_composition R113). -/
def handlerInUse (rt : List Region) (id : HandlerId) : Bool :=
  rt.any fun r =>
    match r.kind with
    | .mmio _ h => decide (h = id)
    | _ => false

/-- The reserved encoding of MAP's handler id: a Region of kind MMIO and an id to which no handler is bound
(30_encoding R90). -/
def unboundRefusal (handlers : HandlerId → Option Handler) : RegionKind → Option Refusal
  | .rom => none
  | .ram => none
  | .mmio _ id => if (handlers id).isSome then none else some (.notBound id)

/-- An entry that 40_composition R113 bars from the table: its handler has device state and already serves a Region
(log entry 14). -/
def sharingRefusal (handlers : HandlerId → Option Handler) (rt : List Region) : RegionKind → Option Refusal
  | .rom => none
  | .ram => none
  | .mmio _ id =>
    match handlers id with
    | none => none
    | some h => if h.stateless = false ∧ handlerInUse rt id = true then some (.notShareable id) else none

/-- MAP accepts its Region: append it and create its backing (40_composition R112, R113). A new store lists nothing:
all zero bytes for a ROM, RAM_INIT for a RAM, none for MMIO. -/
def appendRegion (rt' : List Region) (s : State) : State :=
  { s with rt := rt', stores := s.stores ++ [[]] }

/-- MAP (40_composition R112) of a machine with given handlers: phase, handler id, overlap, in this order
(60_exceptions R210); only an entry that could be made is then tested against R113's rule on sharing. -/
def mapWith (handlers : HandlerId → Option Handler) (e : Region) (s : State) : Host.Outcome State Fault Refusal :=
  if s.phase = .build then
    match unboundRefusal handlers e.kind with
    | some r => .refused r
    | none =>
      match asMap s.rt e with
      | .error j => .next (startupFail { code := .overlap, addr := e.base, size := e.size, region := some j } s)
      | .ok rt' =>
        match sharingRefusal handlers s.rt e.kind with
        | some r => .refused r
        | none => .next ((appendRegion rt' s).respond {})
  else .refused (.notAccepted s.phase)

/-- MAP (40_composition R112). -/
def execMap (name : String) (base : Addr) (size : BitVec 64) (kind : RegionKind) (s : State) :
    Host.Outcome State Fault Refusal :=
  mapWith boundHandler { name := name, base := base, size := size, kind := kind } s

/-- Latch the CPU parameters and set CPU_READY (40_composition R114). -/
def latchCpu (variant : BitVec 8) (be : ByteOrder) (vec : Bool) (s : State) : State :=
  { s with cpuVariant := variant, cpuBe := be, cpuVec := vec, cpuReady := true }

/-- CPUINIT (40_composition R114): the CPU port is driven whether or not the construction succeeds (log entry 25). -/
def execCpuinit (variant : BitVec 8) (be : ByteOrder) (vec : Bool) (cpuOk : Bool) (s : State) :
    Host.Outcome State Fault Refusal :=
  if s.phase = .build ∨ s.phase = .loaded then
    if s.cpuReady then .refused .cpuAlreadyReady
    else
      let drive : CpuDrive := { variant := variant, be := be, vec := vec }
      if cpuOk then .next ((latchCpu variant be vec s).drive { response := some {}, cpuDrive := some drive })
      else
        .next ((startupFail { code := .cpuConstruction } s).drive
          { response := some { err := .cpuConstruction }, cpuDrive := some drive })
  else .refused (.notAccepted s.phase)

/-- The lowest index from `i` on of an entry of kind ROM at LOAD_ADDR, and the entry (40_composition R115). -/
def seedTargetFrom (i : Nat) : List Region → Option (Nat × Region)
  | [] => none
  | r :: rest => if r.kind = .rom ∧ r.base = loadAddr then some (i, r) else seedTargetFrom (i + 1) rest

/-- SEED's target (40_composition R115). -/
def seedTarget (rt : List Region) : Option (Nat × Region) := seedTargetFrom 0 rt

/-- SEED of a found image into its target (40_composition R115, R116): the size test before the first byte. -/
def seedImage (t : Nat) (r : Region) (image : List Byte) (s : State) : State :=
  if image.length > r.size.toNat then
    startupFail { code := .imageTooLarge, size := BitVec.ofNat 64 image.length, region := some t } s
  else
    State.respond { s.setStore t (Memory.pokeAll r.kind (s.store t) 0 image) with phase := .loaded } {}

/-- SEED (40_composition R115): phase, target, not-found, too-large, in this order. -/
def execSeed (image : Option (List Byte)) (s : State) : Host.Outcome State Fault Refusal :=
  if s.phase = .build then
    match seedTarget s.rt with
    | none => .refused .noSeedTarget
    | some (t, r) =>
      match image with
      | none => .next (startupFail { code := .imageNotFound } s)
      | some bytes => .next (seedImage t r bytes s)
  else .refused (.notAccepted s.phase)

/-- START (40_composition R117). -/
def execStart (s : State) : Host.Outcome State Fault Refusal :=
  if s.phase = .loaded then
    if s.cpuReady then .next (State.drive { s with phase := .run } { response := some {}, cpuStart := true })
    else .refused .cpuNotReady
  else .refused (.notAccepted s.phase)

end Sys2Proof.Machine
end

