-- ==== Sys2Proof/Machine/Mmio.lean ====
section
/-! DEFINITION. The MMIO dispatch router: one handler call per access, the byte-order adapter on the way in and out,
the unknown-offset policy (43_mmio_dispatch R175 to R192). -/

namespace Sys2Proof.Machine

/-- Keep a handler's new device state; a stateless handler has none (40_composition R113; log entry 15). -/
def keepDev (h : Handler) (id : HandlerId) (d : DevState) (s : State) : State :=
  if h.stateless then s else s.setDev id d

/-- One call of `dev_read` (43_mmio_dispatch R176): an unknown offset reads 0 and is diagnosed under the Region's name
(R185, R186, R188). -/
def devRead (h : Handler) (id : HandlerId) (name : String) (off : BitVec 32) (w : Width) (s : State) : State × Data :=
  if h.knows off then
    let answer := h.read (s.devState id) off w
    (keepDev h id answer.1 s, answer.2)
  else (s.logDiag { device := name, offset := off, dir := .read }, 0)

/-- One call of `dev_write` (43_mmio_dispatch R176): a write to an unknown offset is discarded and diagnosed under the
Region's name (R185, R187, R188). -/
def devWrite (h : Handler) (id : HandlerId) (name : String) (off : BitVec 32) (w : Width) (hv : Data) (s : State) :
    State :=
  if h.knows off then keepDev h id (h.write (s.devState id) off w hv) s
  else s.logDiag { device := name, offset := off, dir := .write }

/-- `mmio_read` and its response (43_mmio_dispatch R177): the returned word is cut to the width (R184), then adapted
(R179). -/
def mmioRead (h : Handler) (id : HandlerId) (be : ByteOrder) (name : String) (o : Nat) (w : Width) (s : State) : State :=
  let off := BitVec.ofNat 32 o
  let answer := devRead h id name off w s
  answer.1.drive
    { response := some { rdata := adapt w (truncTo w answer.2) s.cpuBe be }
      devCalls := [{ handler := id, dir := .read, width := w, offset := off, rdata := answer.2 }] }

/-- `mmio_write` and its response (43_mmio_dispatch R178): the value is adapted before the call (R179). -/
def mmioWrite (h : Handler) (id : HandlerId) (be : ByteOrder) (name : String) (o : Nat) (w : Width) (v : Data)
    (s : State) : State :=
  let off := BitVec.ofNat 32 o
  let hv := adapt w v s.cpuBe be
  (devWrite h id name off w hv s).drive
    { response := some {}
      devCalls := [{ handler := id, dir := .write, width := w, offset := off, wdata := hv }] }

end Sys2Proof.Machine
end

