-- ==== Sys2Proof/Machine/Storage.lean ====
section
/-! DEFINITION. The storage backend: the read and the write of a ROM or RAM Region, with the bounds check and the
rejection of writes to ROM (42_access R149 to R152). -/

namespace Sys2Proof.Machine

/-- CAUSE of an access that aborts (10_state R27, 60_exceptions R203 to R205). -/
def accessCause (code : ErrorCode) (a : Addr) (w : Width) (dir : Dir) (region : Option Nat) : Cause :=
  { code := code, addr := a, size := BitVec.ofNat 64 w.bytes, dir := dir, region := region }

/-- A defensive invariant violation (60_exceptions R201): under INV_POLICY = DEGRADE respond 0 (a read) or nothing (a
write, whose `rdata` is 0 all the same), under ABORT end the machine (42_access R151, R152). -/
def invariantViolation (code : ErrorCode) (a : Addr) (w : Width) (dir : Dir) (i : Nat) (s : State) : State :=
  match s.cfg.invPolicy with
  | .abort => runtimeAbort (accessCause code a w dir (some i)) s
  | .degrade => s.respond {}

/-- `region_read` and its response (42_access R145, R149). -/
def regionRead (i : Nat) (r : Region) (o : Nat) (w : Width) (a : Addr) (s : State) : State :=
  if o + w.bytes > r.size.toNat then invariantViolation .outOfBounds a w .read i s
  else s.respond { rdata := assemble s.cpuBe (s.bytesAt i r.kind o w.bytes) }

/-- `region_write` and its response (42_access R145, R150). -/
def regionWrite (i : Nat) (r : Region) (o : Nat) (w : Width) (v : Data) (a : Addr) (s : State) : State :=
  if o + w.bytes > r.size.toNat then invariantViolation .outOfBounds a w .write i s
  else if r.kind = .rom then invariantViolation .readOnlyViolation a w .write i s
  else (s.setStore i (Memory.pokeAll r.kind (s.store i) o (split s.cpuBe v w))).respond {}

end Sys2Proof.Machine
end

