-- ==== Sys2Proof/Machine/Access.lean ====
section
/-! DEFINITION. The pipeline every access command runs (42_access R145): phase, `resolve`, the unmapped policy, the
region-select multiplexer (41_resolve R138). -/

namespace Sys2Proof.Machine

/-- `unmapped(dir, n, a)` (42_access R147). -/
def unmappedAccess (dir : Dir) (w : Width) (a : Addr) (s : State) : State :=
  match s.cfg.unmappedPolicy, dir with
  | .abort, _ => runtimeAbort (accessCause .unmappedAccess a w dir none) s
  | .degrade, .read => s.respond { rdata := truncTo w s.cfg.unmappedFill }
  | .degrade, .write => s.respond {}

/-- The storage arm of the multiplexer (41_resolve R138). -/
def storageAccess (dir : Dir) (i : Nat) (r : Region) (o : Nat) (w : Width) (v : Data) (a : Addr) (s : State) : State :=
  match dir with
  | .read => regionRead i r o w a s
  | .write => regionWrite i r o w v a s

/-- The MMIO arm of the multiplexer (41_resolve R138): the device port of the Region's one handler. -/
def mmioAccess (handlers : HandlerId → Option Handler) (dir : Dir) (id : HandlerId) (be : ByteOrder) (name : String)
    (o : Nat) (w : Width) (v : Data) (s : State) : Host.Outcome State Fault Refusal :=
  match handlers id, dir with
  | none, _ => .fault (.unboundHandler id)
  | some h, .read => .next (mmioRead h id be name o w s)
  | some h, .write => .next (mmioWrite h id be name o w v s)

/-- `Access(dir, n, a, v)` (42_access R145) of a machine with given handlers (43_mmio_dispatch R191). -/
def accessWith (handlers : HandlerId → Option Handler) (dir : Dir) (w : Width) (a : Addr) (v : Data) (s : State) :
    Host.Outcome State Fault Refusal :=
  if s.phase = .run then
    match resolve s.rt a w dir with
    | .unmapped => .next (unmappedAccess dir w a s)
    | .mapped i r o =>
      match r.kind with
      | .mmio be id => mmioAccess handlers dir id be r.name o w v s
      | .rom => .next (storageAccess dir i r o w v a s)
      | .ram => .next (storageAccess dir i r o w v a s)
  else .refused (.notAccepted s.phase)

/-- `Access(dir, n, a, v)` of this machine (42_access R145). -/
def access (dir : Dir) (w : Width) (a : Addr) (v : Data) (s : State) : Host.Outcome State Fault Refusal :=
  accessWith boundHandler dir w a v s

end Sys2Proof.Machine
end

