-- ==== Sys2Proof/Machine/Read.lean ====
section
/-! DEFINITION. The read commands (42_access R153 to R156). -/

namespace Sys2Proof.Machine

/-- READ8 (42_access R153). -/
def execRead8 (a : Addr) (s : State) : Host.Outcome State Fault Refusal := access .read .w8 a 0 s

/-- READ16 (42_access R154). -/
def execRead16 (a : Addr) (s : State) : Host.Outcome State Fault Refusal := access .read .w16 a 0 s

/-- READ32 (42_access R155). -/
def execRead32 (a : Addr) (s : State) : Host.Outcome State Fault Refusal := access .read .w32 a 0 s

/-- READ64 (42_access R156). -/
def execRead64 (a : Addr) (s : State) : Host.Outcome State Fault Refusal := access .read .w64 a 0 s

end Sys2Proof.Machine
end

