-- ==== Sys2Proof/Machine/Resolve.lean ====
section
/-! DEFINITION. The probe command RESOLVE (41_resolve R137). -/

namespace Sys2Proof.Machine

/-- The response RESOLVE gives for a result of `resolve` (30_encoding R85, 41_resolve R137). -/
def resolveResponse : Resolution → Response
  | .mapped i _ o => { hit := some { ridx := i, roff := BitVec.ofNat 32 o } }
  | .unmapped => { err := .unmappedAccess }

/-- RESOLVE (41_resolve R137): no side effect, no policy, accepted in BUILD, LOADED and RUN. -/
def execResolve (dir : Dir) (w : Width) (a : Addr) (s : State) : Host.Outcome State Fault Refusal :=
  if s.phase = .build ∨ s.phase = .loaded ∨ s.phase = .run then
    .next (s.respond (resolveResponse (resolve s.rt a w dir)))
  else .refused (.notAccepted s.phase)

end Sys2Proof.Machine
end

