-- ==== Sys2Proof/Machine/Write.lean ====
section
/-! DEFINITION. The write commands (42_access R157 to R160). -/

namespace Sys2Proof.Machine

/-- WRITE8 (42_access R157). -/
def execWrite8 (a : Addr) (v : BitVec 8) (s : State) : Host.Outcome State Fault Refusal :=
  access .write .w8 a (v.setWidth 64) s

/-- WRITE16 (42_access R158). -/
def execWrite16 (a : Addr) (v : BitVec 16) (s : State) : Host.Outcome State Fault Refusal :=
  access .write .w16 a (v.setWidth 64) s

/-- WRITE32 (42_access R159). -/
def execWrite32 (a : Addr) (v : BitVec 32) (s : State) : Host.Outcome State Fault Refusal :=
  access .write .w32 a (v.setWidth 64) s

/-- WRITE64 (42_access R160). -/
def execWrite64 (a : Addr) (v : BitVec 64) (s : State) : Host.Outcome State Fault Refusal :=
  access .write .w64 a v s

end Sys2Proof.Machine
end

