-- ==== Sys2Proof/Machine/Dispatch.lean ====
section
/-! DEFINITION. The meaning of each command (30_encoding R89), one arm per constructor of `Instr`. -/

namespace Sys2Proof.Machine

def exec (i : Instr) (s : State) : Host.Outcome State Fault Refusal :=
  match i with
  | .read8 a => Sys2Proof.Machine.execRead8 a s
  | .read16 a => Sys2Proof.Machine.execRead16 a s
  | .read32 a => Sys2Proof.Machine.execRead32 a s
  | .read64 a => Sys2Proof.Machine.execRead64 a s
  | .write8 a v => Sys2Proof.Machine.execWrite8 a v s
  | .write16 a v => Sys2Proof.Machine.execWrite16 a v s
  | .write32 a v => Sys2Proof.Machine.execWrite32 a v s
  | .write64 a v => Sys2Proof.Machine.execWrite64 a v s
  | .resolve dir w a => Sys2Proof.Machine.execResolve dir w a s
  | .map name base size kind => Sys2Proof.Machine.execMap name base size kind s
  | .cpuinit variant be vec cpuOk => Sys2Proof.Machine.execCpuinit variant be vec cpuOk s
  | .seed image => Sys2Proof.Machine.execSeed image s
  | .start => Sys2Proof.Machine.execStart s

end Sys2Proof.Machine
end

