-- ==== Sys2Proof/Machine/Fetch.lean ====
section
/-! DEFINITION. How a command reaches the ASD: the outside presents it (10_state R22, log entry 1). -/

namespace Sys2Proof.Machine

/-- The next thing the outside hands the ASD, and the state with it taken off the list; none when nothing is
presented. -/
def nextStimulus (s : State) : Option (Stimulus × State) :=
  match s.input with
  | [] => none
  | x :: rest => some (x, { s with input := rest })

/-- `s` with a command frame presented before everything else the outside will hand over. -/
def presentFrame (f : Frame) (s : State) : State := { s with input := .command f :: s.input }

/-- `rst` (70_reset_and_hazards R230): every piece of state to its reset value, CFG from the straps; the stores' and
devices' contents are a new reset's (log entry 10), and what the outside will still present is the outside's own. -/
def resetNow (straps : BitVec 66) (s : State) : State := State.afterReset straps (s.epoch + 1) s.input

end Sys2Proof.Machine
end

