-- ==== Sys2Proof/Machine/Step.lean ====
section
/-! DEFINITION. One step: the ASD takes the next thing the outside hands it, or idles (10_state R22, R34,
60_exceptions R223). -/

namespace Sys2Proof.Machine

/-- One step. A presented command is decoded and executed as one atomic step (70_reset_and_hazards R235); a frame that
is no command is refused (30_encoding R90); `rst` resets; with nothing presented the ASD "is idle and holds its state"
(60_exceptions R223). -/
def step (s : State) : Host.Outcome State Fault Refusal :=
  match nextStimulus s with
  | none => .next s
  | some (.rst straps, s') => .next (resetNow straps s')
  | some (.command f, s') =>
    match decode f with
    | .ok i => exec i s'
    | .error e => .refused (.undecodable e)

/-- `s` with the command of a table word presented next (log entries 1 and 19). -/
def State.withFetchWord (s : State) (nbits w : Nat) : State := presentFrame (Frame.ofTableWord nbits w) s

end Sys2Proof.Machine
end

