-- ==== Sys2Proof/Machine/Irq.lean ====
section
/-! DEFINITION. IRQ_TABLE, the constant naming table of the interrupt lines (60_exceptions R216). Nothing reads it, no
command takes a line number, and the ASD delivers no interrupt (R217). -/

namespace Sys2Proof.Machine

/-- The fifteen named interrupt sources (60_exceptions R216). -/
inductive IrqSource where
  | timer
  | storage
  | cryptoA
  | cryptoB
  | usbEhci
  | usbOhci0
  | usbOhci1
  | sdMmc
  | wireless
  | gpioSecondaryCore
  | gpioPrimaryCore
  | resetButton
  | discInterface
  | ipcSecondaryToPrimary
  | ipcPrimaryToSecondary
  deriving DecidableEq, Repr

/-- The line number of a source (60_exceptions R216). -/
def IrqSource.line : IrqSource → Fin 32
  | .timer => 0
  | .storage => 1
  | .cryptoA => 2
  | .cryptoB => 3
  | .usbEhci => 4
  | .usbOhci0 => 5
  | .usbOhci1 => 6
  | .sdMmc => 7
  | .wireless => 8
  | .gpioSecondaryCore => 10
  | .gpioPrimaryCore => 11
  | .resetButton => 17
  | .discInterface => 18
  | .ipcSecondaryToPrimary => 30
  | .ipcPrimaryToSecondary => 31

/-- IRQ_TABLE by line number; `none` is a reserved number (60_exceptions R216). -/
def irqTable : List (Option IrqSource) :=
  [some .timer, some .storage, some .cryptoA, some .cryptoB, some .usbEhci, some .usbOhci0, some .usbOhci1,
    some .sdMmc, some .wireless, none, some .gpioSecondaryCore, some .gpioPrimaryCore, none, none, none, none, none,
    some .resetButton, some .discInterface, none, none, none, none, none, none, none, none, none, none, none,
    some .ipcSecondaryToPrimary, some .ipcPrimaryToSecondary]

end Sys2Proof.Machine
end

