-- ==== Sys2Proof/Safety.lean ====
section
/-! DEFINITION. What a good run is, and the invariant every step keeps (10_state R26, R29, 60_exceptions R214,
70_reset_and_hazards R239). -/

namespace Sys2Proof.Machine

/-- FAILED and ABORTED are terminal "and are faults, never the final state of a good run" (70_reset_and_hazards R239). -/
def State.ended (s : State) : Bool := decide (s.phase = .failed) || decide (s.phase = .aborted)

/-- A good run may be observed only in RUN (70_reset_and_hazards R239). -/
def State.observable (s : State) : Bool := decide (s.phase = .run)

/-- The phase in which an error code ends the machine (60_exceptions R200, R211, R212). -/
def ErrorCode.endsIn : ErrorCode → Option Phase
  | .none => Option.none
  | .overlap | .imageNotFound | .imageTooLarge | .cpuConstruction => some .failed
  | .unmappedAccess | .outOfBounds | .readOnlyViolation => some .aborted

/-- The one transition relation of PHASE between two different phases but by reset (10_state R26). -/
def Phase.mayBecome : Phase → Phase → Bool
  | .build, .loaded | .loaded, .run | .build, .failed | .loaded, .failed | .run, .aborted => true
  | _, _ => false

/-- No two entries' spans intersect (10_state R29 (b)). -/
abbrev DisjointSpans (rt : List Region) : Prop := rt.Pairwise fun e f => intersects e f = false

/-- Which commands a phase accepts (10_state R26), before a command's own conditions. -/
def Phase.accepts : Phase → Instr → Bool
  | .build, .map _ _ _ _ | .build, .cpuinit _ _ _ _ | .build, .seed _ | .build, .resolve _ _ _ => true
  | .loaded, .cpuinit _ _ _ _ | .loaded, .start | .loaded, .resolve _ _ _ => true
  | .run, .read8 _ | .run, .read16 _ | .run, .read32 _ | .run, .read64 _ => true
  | .run, .write8 _ _ | .run, .write16 _ _ | .run, .write32 _ _ | .run, .write64 _ _ => true
  | .run, .resolve _ _ _ => true
  | _, _ => false

/-- The invariant of a reachable state. -/
structure Inv (s : State) : Prop where
  /-- No two entries' spans intersect (10_state R29 (b)). -/
  disjoint : DisjointSpans s.rt
  /-- Every entry has its place for a store (10_state R29 (d)). -/
  stores_length : s.stores.length = s.rt.length
  /-- Every store is in canonical form and inside its Region (10_state R29 (d), R30). -/
  stores_wf : ∀ i r, s.rt[i]? = some r → Memory.wf r.kind r.size.toNat (s.store i)
  /-- An MMIO entry has no store (10_state R30). -/
  mmio_no_store : ∀ i r be id, s.rt[i]? = some r → r.kind = .mmio be id → s.store i = []
  /-- Every MMIO entry has its one handler (10_state R29 (d)). -/
  handlers : ∀ r be id, r ∈ s.rt → r.kind = .mmio be id → (boundHandler id).isSome
  /-- A handler that has device state serves at most one entry (40_composition R113; log entry 14). -/
  handlers_unshared : s.rt.Pairwise fun e f =>
    ∀ be be' id h, e.kind = .mmio be id → f.kind = .mmio be' id → boundHandler id = some h → h.stateless = true
  /-- DEV lists each handler once. -/
  dev_sorted : Assoc.Sorted s.dev
  /-- CAUSE says what ended the machine, and nothing while it runs (10_state R27, 60_exceptions R211, R212, R214). -/
  cause_phase : s.cause.code.endsIn = if s.ended then some s.phase else none
  /-- START requires CPU_READY (40_composition R117). -/
  run_ready : s.phase = .run ∨ s.phase = .aborted → s.cpuReady = true
  /-- SEED requires a ROM at LOAD_ADDR (40_composition R115). -/
  seeded : s.phase = .loaded ∨ s.phase = .run ∨ s.phase = .aborted → (seedTarget s.rt).isSome

end Sys2Proof.Machine
end

