-- ==== Sys2Proof/Certificates/Slice0/Obligations.lean ====
section
/-! DEFINITION. The statements for the provers. A rule R<n> named in a docstring is a rule of spec/. -/

open Sys2Proof Sys2Proof.Machine

/-! ### Decoding and encoding -/

/-- Decoding the encoding of a well-formed command gives the command back, for every command and every operand (R82,
R83, R84, R88, R89). The spec marks as its own: R88 (decision D2), R89 (decision D2). -/
def Obligations.DecodeOfEncodeGivesTheCommandBack : Prop :=
  ∀ i : Instr, i.wellFormed = true → decode (encode i) = .ok i

/-- Every command the decoder answers is well-formed, and `cmd[4:0]` alone selects it: encoding it again gives the
same command word (R89, R92). The spec marks as its own: R89 (decision D2), R92 (decision D2). -/
def Obligations.DecodedCommandKeepsItsCommandWord : Prop :=
  ∀ (f : Frame) (i : Instr), decode f = .ok i → i.wellFormed = true ∧ (encode i).cmd = f.cmd

/-- A frame is refused by the decoder exactly when its command word is 0x14 to 0x1F, or it is a MAP of kind 3 (R90),
or a SEED whose image is not presented whole (the model's own case, log entry 18). The spec marks as its own: R90
(decision D2). -/
def Obligations.DecoderRefusesExactlyReservedFrames : Prop :=
  ∀ f : Frame, (∃ e, decode f = .error e) ↔
    0x14 ≤ f.cmd.toNat ∨ (f.cmd = 0x10#5 ∧ f.dKind = 0b11#2) ∨
      (f.cmd = 0x12#5 ∧ f.imgFound = true ∧ f.img.length < f.imgLen.toNat)

/-- A few command words of the opcode map, written out from R89 and R94's operands, decode to their commands, and the
four widths are 1, 2, 4 and 8 bytes (R60, R88). The spec marks as its own: R60 (decision D3), R88 (decision D2), R89
(decision D2), R94 (decision D28). -/
def Obligations.SampleWordsDecode : Prop :=
  decode { cmd := 0b00000#5, addr := 0xFFFF0000#32 } = .ok (.read8 0xFFFF0000#32) ∧
    decode { cmd := 0b00110#5, addr := 0x10000000#32, wdata := 0x11223344#64 } =
      .ok (.write32 0x10000000#32 0x11223344#32) ∧
    decode { cmd := 0b01110#5, addr := 0x017FFFFD#32 } = .ok (.resolve .write .w32 0x017FFFFD#32) ∧
    decode { cmd := 0b10000#5, addr := 0x0D010000#32, wdata := 0x200#64, dKind := 0b10#2, dBe := true,
             dName := "STORAGE" } = .ok (.map "STORAGE" 0x0D010000#32 0x200#64 (.mmio .big 0#8)) ∧
    decode { cmd := 0b10001#5, wdata := 0x100#64, cpuOk := true } = .ok (.cpuinit 0#8 .big false true) ∧
    decode { cmd := 0b10011#5 } = .ok .start ∧
    Width.w8.bytes = 1 ∧ Width.w16.bytes = 2 ∧ Width.w32.bytes = 4 ∧ Width.w64.bytes = 8

/-- Ignored operand bits change nothing (R83, R84, R88, R90): two frames with the same command word present the same
command when they agree in the signals that command has: a READ or a RESOLVE in `addr`; a WRITE in `addr` and in
`wdata` below the width; a MAP in `addr`, `wdata`, `d_name` and `d_kind`, and for MMIO in `d_be` and `d_handler`; a
CPUINIT in `wdata[9:0]` and `cpu_ok`; a SEED in `img_found` and, with 1 there, in the image; a START in nothing more.
The spec marks as its own: R88 (decision D2), R90 (decision D2). -/
def Obligations.IgnoredOperandBitsChangeNothing : Prop :=
  ∀ f g : Frame, f.cmd = g.cmd →
    (f.cmd.toNat < 0x04 ∨ 0x08 ≤ f.cmd.toNat ∧ f.cmd.toNat < 0x10 → f.addr = g.addr → decode f = decode g) ∧
    (f.cmd = 0x04#5 → f.addr = g.addr → f.wdata.extractLsb' 0 8 = g.wdata.extractLsb' 0 8 → decode f = decode g) ∧
    (f.cmd = 0x05#5 → f.addr = g.addr → f.wdata.extractLsb' 0 16 = g.wdata.extractLsb' 0 16 → decode f = decode g) ∧
    (f.cmd = 0x06#5 → f.addr = g.addr → f.wdata.extractLsb' 0 32 = g.wdata.extractLsb' 0 32 → decode f = decode g) ∧
    (f.cmd = 0x07#5 → f.addr = g.addr → f.wdata = g.wdata → decode f = decode g) ∧
    (f.cmd = 0x10#5 → f.addr = g.addr → f.wdata = g.wdata → f.dName = g.dName → f.dKind = g.dKind →
      (f.dKind.toNat < 2 ∨ f.dBe = g.dBe ∧ f.dHandler = g.dHandler) → decode f = decode g) ∧
    (f.cmd = 0x11#5 → f.wdata.extractLsb' 0 10 = g.wdata.extractLsb' 0 10 → f.cpuOk = g.cpuOk →
      decode f = decode g) ∧
    (f.cmd = 0x12#5 → f.imgFound = g.imgFound →
      (f.imgFound = false ∨ f.imgLen = g.imgLen ∧ f.img = g.img) → decode f = decode g) ∧
    (f.cmd = 0x13#5 → decode f = decode g)

/-! ### Bytes, values and the adapter -/

/-- `assemble` is the positional sum of R52, in both byte orders. The spec marks as its own: R52 (decision D4). -/
def Obligations.AssembleIsThePositionalSum : Prop :=
  ∀ bs : List Byte, bs.length ≤ 8 →
    (assemble .big bs).toNat =
        ∑ i ∈ Finset.range bs.length, (bs.getD i 0).toNat * 2 ^ (8 * (bs.length - 1 - i)) ∧
      (assemble .little bs).toNat = ∑ i ∈ Finset.range bs.length, (bs.getD i 0).toNat * 2 ^ (8 * i)

/-- `split` takes byte `i` from the bits R52 names, in both byte orders. The spec marks as its own: R52 (decision
D4). -/
def Obligations.SplitTakesTheNamedBits : Prop :=
  ∀ (v : Data) (w : Width) (i : Nat), i < w.bytes →
    (split .big v w)[i]? = some (v.extractLsb' (8 * (w.bytes - 1 - i)) 8) ∧
      (split .little v w)[i]? = some (v.extractLsb' (8 * i) 8)

/-- `split` and `assemble` are inverse to each other (R52). The spec marks as its own: R52 (decision D4). -/
def Obligations.SplitAndAssembleAreInverse : Prop :=
  ∀ (e : ByteOrder) (w : Width),
    (∀ bs : List Byte, bs.length = w.bytes → split e (assemble e bs) w = bs) ∧
      ∀ v : Data, v.toNat < 2 ^ (8 * w.bytes) → assemble e (split e v w) = v

/-- The adapter is the identity when the orders agree and `bswap` when they differ, on every value of the width
(R179, R180 (d)); it is its own inverse, and leaves byte accesses alone (R180 (a), (b)). The spec marks as its own:
R179 (decision D5), R180 (derived). -/
def Obligations.AdapterIsAnInvolutiveByteSwap : Prop :=
  ∀ (w : Width) (x : Data) (c b : ByteOrder), x.toNat < 2 ^ (8 * w.bytes) →
    adapt w x c b = (if c = b then x else bswap x w) ∧ adapt w (adapt w x c b) c b = x ∧
      (w = .w8 → adapt w x c b = x)

/-! ### Region select -/

/-- R111: "Two spans intersect exactly when they share a byte address", and an empty span intersects nothing. The
spec marks as its own: R111 (decision D7). -/
def Obligations.SpansIntersectExactlyWhenTheyShareAByte : Prop :=
  ∀ e f : Region,
    (intersects e f = true ↔
        ∃ x : Nat, (e.base.toNat ≤ x ∧ x < e.limit) ∧ (f.base.toNat ≤ x ∧ x < f.limit)) ∧
      (e.size = 0 → intersects e f = false)

/-- R132: in a table without intersecting spans at most one entry contains a given access, and `resolve` answers it
whatever its place in the table, so the order of the search cannot be observed. The spec marks as its own: R132
(derived). -/
def Obligations.AtMostOneEntryContainsAnAccess : Prop :=
  ∀ (rt : List Region) (a : Addr) (w : Width) (dir : Dir) (i : Nat) (r : Region), DisjointSpans rt →
    rt[i]? = some r → contains r a w = true →
      resolve rt a w dir = .mapped i r (a.toNat - r.base.toNat) ∧
        ∀ (j : Nat) (f : Region), rt[j]? = some f → contains f a w = true → j = i

/-- R131: "`resolve(address, size, direction)` returns the owning Region and the in-Region offset, or a
`UnmappedAccessError` if no Region contains the full access span", with R130's containment written out: it answers
unmapped exactly when no entry has base <= a and a + n <= base + size, and an entry exactly when it is the first that
has, with the offset a - base; `contains`, in which other statements are put, is that containment. -/
def Obligations.ResolveIsUnmappedExactlyWhenNothingContains : Prop :=
  ∀ (rt : List Region) (a : Addr) (w : Width) (dir : Dir),
    (resolve rt a w dir = .unmapped ↔
        ∀ r ∈ rt, ¬(r.base.toNat ≤ a.toNat ∧ a.toNat + w.bytes ≤ r.base.toNat + r.size.toNat)) ∧
      (∀ (i : Nat) (r : Region) (o : Nat), resolve rt a w dir = .mapped i r o ↔
        rt[i]? = some r ∧ (r.base.toNat ≤ a.toNat ∧ a.toNat + w.bytes ≤ r.base.toNat + r.size.toNat) ∧
          o = a.toNat - r.base.toNat ∧
          ∀ (j : Nat) (f : Region), j < i → rt[j]? = some f →
            ¬(f.base.toNat ≤ a.toNat ∧ a.toNat + w.bytes ≤ f.base.toNat + f.size.toNat)) ∧
      ∀ r : Region, contains r a w = true ↔
        r.base.toNat ≤ a.toNat ∧ a.toNat + w.bytes ≤ r.base.toNat + r.size.toNat

/-- R133: an access that starts inside a Region and runs past its end, or starts below a Region and runs into it, is
unmapped, even where the next Region begins at the very next byte. The spec marks as its own: R133 (derived). -/
def Obligations.StraddlingAccessIsUnmapped : Prop :=
  ∀ (rt : List Region) (r : Region) (a : Addr) (w : Width) (dir : Dir), DisjointSpans rt → r ∈ rt →
    (r.base.toNat ≤ a.toNat ∧ a.toNat < r.limit ∧ r.limit < a.toNat + w.bytes ∨
      a.toNat < r.base.toNat ∧ r.base.toNat < a.toNat + w.bytes ∧ r.base.toNat < r.limit) →
    resolve rt a w dir = .unmapped

/-- R134: "The result of `resolve` does not depend on `dir`", so a write to ROM resolves to the ROM Region, "not to
`Unmapped`". The spec marks as its own: R134 (derived). -/
def Obligations.ResolveDoesNotDependOnDirection : Prop :=
  ∀ (rt : List Region) (a : Addr) (w : Width) (dir dir' : Dir),
    resolve rt a w dir = resolve rt a w dir' ∧
      ∀ (i : Nat) (r : Region), DisjointSpans rt → rt[i]? = some r → r.kind = .rom → contains r a w = true →
        resolve rt a w .write = .mapped i r (a.toNat - r.base.toNat)

/-- R136: the end of an access is not reduced modulo 2^32: where every Region ends at or below 2^32, an access that
runs past the top is unmapped, also with a Region at address 0. The spec marks as its own: R136 (decision D7). -/
def Obligations.AccessPastTheTopNeverWraps : Prop :=
  ∀ (rt : List Region) (a : Addr) (w : Width) (dir : Dir), (∀ r ∈ rt, r.limit ≤ 2 ^ 32) →
    2 ^ 32 < a.toNat + w.bytes → resolve rt a w dir = .unmapped

/-- R64: with the thirteen Regions of this system-on-chip mapped, a byte is unmapped exactly in the thirteen ranges
the rule lists. The thirteen Regions are those of R63, whose numbers are unaudited and whose four PERIPH windows are
a decision: log entry 27, unsafe. The spec marks as its own: R63 (derived, decision D8), R64 (derived). -/
def Obligations.SocUnmappedRangesAreThoseListed : Prop :=
  ∀ (a : Addr) (dir : Dir), resolve socTable a .w8 dir = .unmapped ↔
    (0x01800000 ≤ a.toNat ∧ a.toNat ≤ 0x0D00FFFF) ∨ (0x0D010200 ≤ a.toNat ∧ a.toNat ≤ 0x0D01FFFF) ∨
    (0x0D020200 ≤ a.toNat ∧ a.toNat ≤ 0x0D02FFFF) ∨ (0x0D030200 ≤ a.toNat ∧ a.toNat ≤ 0x0D03FFFF) ∨
    (0x0D040200 ≤ a.toNat ∧ a.toNat ≤ 0x0D04FFFF) ∨ (0x0D050200 ≤ a.toNat ∧ a.toNat ≤ 0x0D05FFFF) ∨
    (0x0D060200 ≤ a.toNat ∧ a.toNat ≤ 0x0D06FFFF) ∨ (0x0D070200 ≤ a.toNat ∧ a.toNat ≤ 0x0D3FFFFF) ∨
    (0x0D420000 ≤ a.toNat ∧ a.toNat ≤ 0x0D7FFFFF) ∨ (0x0D800220 ≤ a.toNat ∧ a.toNat ≤ 0x0D8B41FF) ∨
    (0x0D8B42D0 ≤ a.toNat ∧ a.toNat ≤ 0x0FFFFFFF) ∨ (0x14000000 ≤ a.toNat ∧ a.toNat ≤ 0xFFFEFFFF) ∨
    (0xFFFF2000 ≤ a.toNat ∧ a.toNat ≤ 0xFFFFFFFF)

/-! ### RESOLVE -/

/-- RESOLVE of an access some entry contains (R137): in BUILD, LOADED and RUN it answers a next state that differs
from the state before in nothing but the response: `err` 0, `hit` with the entry's index and offset. The spec marks
as its own: R137 (decision D20). What the ports carried is recorded by log entries 3 and 24. -/
def Obligations.ResolveReportsTheOwningRegion : Prop :=
  ∀ (s : State) (dir : Dir) (w : Width) (a : Addr) (i : Nat) (r : Region),
    (s.phase = .build ∨ s.phase = .loaded ∨ s.phase = .run) → DisjointSpans s.rt → s.rt[i]? = some r →
    contains r a w = true →
    exec (.resolve dir w a) s =
      .next { s with out := { response := some { hit := some { ridx := i, roff := a - r.base } } } }

/-- RESOLVE of an access no entry contains (R137): UnmappedAccessError as a value, and nothing else changes whatever
the straps are. The spec marks as its own: R137 (decision D20). What the ports carried is recorded by log entries 3
and 24. -/
def Obligations.ResolveReportsUnmapped : Prop :=
  ∀ (s : State) (dir : Dir) (w : Width) (a : Addr),
    (s.phase = .build ∨ s.phase = .loaded ∨ s.phase = .run) → (∀ r ∈ s.rt, contains r a w = false) →
    exec (.resolve dir w a) s = .next { s with out := { response := some { err := .unmappedAccess } } }

/-! ### Composition -/

/-- MAP accepts a Region whose span intersects no entry (R111, R112, R113): the entry is appended with an empty
backing, and nothing else changes. An MMIO kind needs a bound handler, one that is stateless or serves no entry yet.
That last condition is log entry 14. The spec marks as its own: R111 (decision D7), R112 (decision D27), R113
(decision D26). What the ports carried is recorded by log entries 3 and 24. -/
def Obligations.MapAppendsADisjointRegion : Prop :=
  ∀ (s : State) (name : String) (base : Addr) (size : BitVec 64) (kind : RegionKind), s.phase = .build →
    (∀ be id, kind = .mmio be id → ∃ h, boundHandler id = some h ∧
      (h.stateless = true ∨ ∀ f ∈ s.rt, ∀ be', f.kind ≠ .mmio be' id)) →
    (∀ f ∈ s.rt, intersects ⟨name, base, size, kind⟩ f = false) →
    exec (.map name base size kind) s =
      .next { s with rt := s.rt ++ [⟨name, base, size, kind⟩], stores := s.stores ++ [[]],
                     out := { response := some {} } }

/-- A new ROM reads as zero at every offset (R36, R113). The spec marks as its own: R113 (decision D26). -/
def Obligations.MappedRomReadsAsZero : Prop :=
  ∀ (s t : State) (name : String) (base : Addr) (size : BitVec 64), s.stores.length = s.rt.length →
    exec (.map name base size .rom) s = .next t → t.phase = .build →
    t.rt[s.rt.length]? = some ⟨name, base, size, .rom⟩ ∧ ∀ o, t.byteAt s.rt.length .rom o = 0

/-- MAP of a Region whose span intersects an entry (R112, R202, R210, R211): OverlapError ends the machine in FAILED,
with the rejected base and size and the lowest intersecting index in CAUSE; the table and all else are unchanged. An
MMIO kind needs a bound handler and no more: overlap is tested before R113's rule on sharing. The spec marks as its
own: R112 (decision D27), R113 (decision D26), R210 (decision D23), R211 (decision D27). What the ports carried is
recorded by log entries 3 and 24. -/
def Obligations.MapOverlapFailsTheMachine : Prop :=
  ∀ (s : State) (name : String) (base : Addr) (size : BitVec 64) (kind : RegionKind) (j : Nat) (f : Region),
    s.phase = .build → (∀ be id, kind = .mmio be id → (boundHandler id).isSome = true) →
    s.rt[j]? = some f → intersects ⟨name, base, size, kind⟩ f = true →
    (∀ (k : Nat) (g : Region), k < j → s.rt[k]? = some g → intersects ⟨name, base, size, kind⟩ g = false) →
    exec (.map name base size kind) s =
      .next { s with phase := .failed,
                     cause := { code := .overlap, addr := base, size := size, dir := .read, region := some j },
                     out := { response := some { err := .overlap } } }

/-- MAP of an MMIO Region on a machine with any handlers, in the order of R112 and R210: it is refused when no
handler is bound to its id (R90), overlapping or not; with a bound handler that has device state and already serves
an entry it fails with OverlapError when the span intersects an entry, and is refused when it intersects none (R113;
that refusal is the model's reading, log entry 14). The spec marks as its own: R90 (decision D2), R112 (decision
D27), R113 (decision D26), R210 (decision D23). -/
def Obligations.MapRefusesAnUnusableHandler : Prop :=
  ∀ (hs : HandlerId → Option Handler) (s : State) (e : Region) (be : ByteOrder) (id : HandlerId), s.phase = .build →
    e.kind = .mmio be id →
    (hs id = none → mapWith hs e s = .refused (.notBound id)) ∧
      ∀ (h : Handler) (f : Region) (be' : ByteOrder), hs id = some h → h.stateless = false → f ∈ s.rt →
        f.kind = .mmio be' id →
        ((∀ g ∈ s.rt, intersects e g = false) → mapWith hs e s = .refused (.notShareable id)) ∧
          ((∃ g ∈ s.rt, intersects e g = true) →
            ∃ t, mapWith hs e s = .next t ∧ t.phase = .failed ∧ t.cause.code = .overlap)

/-- CPUINIT with `cpu_ok` = 1 (R114): the three parameters are latched, CPU_READY is set, the CPU port is driven, and
nothing else changes. The spec marks as its own: R114 (decision D13). What the ports carried is recorded by log
entries 3 and 24. -/
def Obligations.CpuinitLatchesTheParameters : Prop :=
  ∀ (s : State) (variant : BitVec 8) (be : ByteOrder) (vec : Bool), (s.phase = .build ∨ s.phase = .loaded) →
    s.cpuReady = false →
    exec (.cpuinit variant be vec true) s =
      .next { s with cpuVariant := variant, cpuBe := be, cpuVec := vec, cpuReady := true,
                     out := { response := some {}, cpuDrive := some ⟨variant, be, vec⟩ } }

/-- CPUINIT with `cpu_ok` = 0 (R114, R208, R211): CpuConstructionError ends the machine in FAILED; no parameter is
latched; the CPU port is driven all the same (log entry 25). The spec marks as its own: R114 (decision D13), R208
(decision D12), R211 (decision D27). What the ports carried is recorded by log entries 3 and 24. -/
def Obligations.CpuinitFailureEndsTheMachine : Prop :=
  ∀ (s : State) (variant : BitVec 8) (be : ByteOrder) (vec : Bool), (s.phase = .build ∨ s.phase = .loaded) →
    s.cpuReady = false →
    exec (.cpuinit variant be vec false) s =
      .next { s with phase := .failed,
                     cause := { code := .cpuConstruction, addr := 0, size := 0, dir := .read, region := none },
                     out := { response := some { err := .cpuConstruction }, cpuDrive := some ⟨variant, be, vec⟩ } }

/-- SEED of an image that fits its target (R115, R116): PHASE is LOADED, the target's bytes below the image's length
are the image's, in ascending offset whatever any byte order is, every other byte of every store and all other state
is unchanged. The target is the lowest entry of kind ROM at LOAD_ADDR. The spec marks as its own: R115 (decision
D15). What the ports carried is recorded by log entries 3 and 24. -/
def Obligations.SeedCopiesTheImage : Prop :=
  ∀ (s : State) (image : List Byte) (i : Nat) (r : Region), Inv s → s.phase = .build → s.rt[i]? = some r →
    r.kind = .rom → r.base = 0xFFFF0000#32 →
    (∀ (k : Nat) (g : Region), k < i → s.rt[k]? = some g → g.kind ≠ .rom ∨ g.base ≠ 0xFFFF0000#32) →
    image.length ≤ r.size.toNat →
    ∃ t, exec (.seed (some image)) s = .next t ∧
      t = { s with phase := .loaded, stores := t.stores, out := { response := some {} } } ∧
      (∀ j, j ≠ i → t.store j = s.store j) ∧
      ∀ o, t.byteAt i .rom o = if o < image.length then image.getD o 0 else s.byteAt i .rom o

/-- SEED without an image (R115, R206, R211): ImageNotFoundError ends the machine in FAILED; no store changes. The
spec marks as its own: R115 (decision D15), R211 (decision D27). What the ports carried is recorded by log entries 3
and 24. -/
def Obligations.SeedNotFoundFailsTheMachine : Prop :=
  ∀ (s : State) (r : Region), s.phase = .build → r ∈ s.rt → r.kind = .rom → r.base = 0xFFFF0000#32 →
    exec (.seed none) s =
      .next { s with phase := .failed,
                     cause := { code := .imageNotFound, addr := 0, size := 0, dir := .read, region := none },
                     out := { response := some { err := .imageNotFound } } }

/-- SEED of an image longer than its target (R115, R116, R207, R211): ImageTooLargeError ends the machine in FAILED
with the image's length and the target in CAUSE; nothing is written. The spec marks as its own: R115 (decision D15),
R211 (decision D27). What the ports carried is recorded by log entries 3 and 24. -/
def Obligations.SeedTooLargeFailsTheMachine : Prop :=
  ∀ (s : State) (image : List Byte) (i : Nat) (r : Region), s.phase = .build → s.rt[i]? = some r → r.kind = .rom →
    r.base = 0xFFFF0000#32 →
    (∀ (k : Nat) (g : Region), k < i → s.rt[k]? = some g → g.kind ≠ .rom ∨ g.base ≠ 0xFFFF0000#32) →
    r.size.toNat < image.length →
    exec (.seed (some image)) s =
      .next { s with phase := .failed,
                     cause := { code := .imageTooLarge, addr := 0, size := BitVec.ofNat 64 image.length, dir := .read,
                                region := some i },
                     out := { response := some { err := .imageTooLarge } } }

/-- START (R117): in LOADED with CPU_READY it enters RUN and pulses `cpu_start`, and nothing else changes. The spec
marks as its own: R117 (decision D13). What the ports carried is recorded by log entries 3 and 24. -/
def Obligations.StartEntersRun : Prop :=
  ∀ s : State, s.phase = .loaded → s.cpuReady = true →
    exec .start s = .next { s with phase := .run, out := { response := some {}, cpuStart := true } }

/-- What the composer's commands refuse in a phase that accepts them: a second CPUINIT (R114), a SEED with no entry
of kind ROM at LOAD_ADDR, whatever the image is (R115), a START before CPUINIT (R117). The spec marks as its own:
R114 (decision D13), R115 (decision D15), R117 (decision D13). -/
def Obligations.ComposerCommandsRefuseOutOfTurn : Prop :=
  ∀ (s : State) (variant : BitVec 8) (be : ByteOrder) (vec ok : Bool) (image : Option (List Byte)),
    ((s.phase = .build ∨ s.phase = .loaded) → s.cpuReady = true →
        exec (.cpuinit variant be vec ok) s = .refused .cpuAlreadyReady) ∧
      (s.phase = .build → (∀ r ∈ s.rt, r.kind ≠ .rom ∨ r.base ≠ 0xFFFF0000#32) →
        exec (.seed image) s = .refused .noSeedTarget) ∧
      (s.phase = .loaded → s.cpuReady = false → exec .start s = .refused .cpuNotReady)

/-! ### Accesses -/

/-- READ8, READ16, READ32 and READ64 of a storage Region (R54, R149, R153 to R156): the response is the bytes at the
offset, assembled in byte order CPU_BE, and nothing else changes (R62), whatever the address's alignment (R58). That
storage values follow CPU_BE, and all that is said for CPU_BE = 0, rests on R53: log entry 26, unsafe. The spec marks
as its own: R53 (decision D4), R58 (decision D6), R62 (derived). What the ports carried is recorded by log entries 3
and 24. -/
def Obligations.ReadOfStorageReturnsItsBytes : Prop :=
  ∀ (s : State) (w : Width) (a : Addr) (i : Nat) (r : Region), s.phase = .run → DisjointSpans s.rt →
    s.rt[i]? = some r → contains r a w = true → (r.kind = .rom ∨ r.kind = .ram) →
    exec (readCommand w a) s =
      .next { s with out :=
        ⟨some ⟨.none, assemble s.cpuBe
          ((List.range w.bytes).map fun k => s.byteAt i r.kind (a.toNat - r.base.toNat + k)), none⟩, [], none, false⟩ }

/-- WRITE8, WRITE16, WRITE32 and WRITE64 of a RAM Region (R54, R150, R157 to R160): exactly the bytes of the access's
span change, byte `k` to the `k`-th byte of the value in byte order CPU_BE; every other byte of every store and all
other state is unchanged (R62). That storage values follow CPU_BE, and all that is said for CPU_BE = 0, rests on R53:
log entry 26, unsafe. The spec marks as its own: R53 (decision D4), R62 (derived), R150 (decision D23). What the
ports carried is recorded by log entries 3 and 24. -/
def Obligations.WriteOfRamChangesExactlyItsBytes : Prop :=
  ∀ (s : State) (w : Width) (a : Addr) (v : Data) (i : Nat) (r : Region), Inv s → s.phase = .run →
    s.rt[i]? = some r → contains r a w = true → r.kind = .ram →
    ∃ t, exec (writeCommand w a v) s = .next t ∧
      t = { s with stores := t.stores, out := { response := some {} } } ∧
      (∀ j, j ≠ i → t.store j = s.store j) ∧
      ∀ o, t.byteAt i .ram o =
        if a.toNat - r.base.toNat ≤ o ∧ o < a.toNat - r.base.toNat + w.bytes then
          (split s.cpuBe v w).getD (o - (a.toNat - r.base.toNat)) 0
        else s.byteAt i .ram o

/-- Mixed-width accesses see the same bytes (R56, R67 (a)): after a WRITEn of `v` in RAM, a read of any width whose
span lies inside the written one returns the bytes of `v` it covers, assembled in byte order CPU_BE; so a read of the
same width at the same address returns `v` cut to the width. That storage values follow CPU_BE, and all that is said
for CPU_BE = 0, rests on R53: log entry 26, unsafe. The spec marks as its own: R53 (decision D4), R56 (derived). What
the ports carried is recorded by log entries 3 and 24. -/
def Obligations.MixedWidthReadsSeeTheWrittenBytes : Prop :=
  ∀ (s : State) (w w' : Width) (a a' : Addr) (v : Data) (i : Nat) (r : Region), Inv s → s.phase = .run →
    s.rt[i]? = some r → contains r a w = true → r.kind = .ram → a.toNat ≤ a'.toNat →
    a'.toNat + w'.bytes ≤ a.toNat + w.bytes →
    ∃ t u, exec (writeCommand w a v) s = .next t ∧ exec (readCommand w' a') t = .next u ∧
      u.out.response = some
        { rdata := assemble s.cpuBe (((split s.cpuBe v w).drop (a'.toNat - a.toNat)).take w'.bytes) } ∧
      (w' = w → a' = a → u.out.response = some { rdata := truncTo w v })

/-- WRITEn of a ROM Region (R152, R205): under INV_POLICY = DEGRADE it is ignored with `err` 0 and nothing changes;
under ABORT the machine ends in ABORTED with ReadOnlyViolationError, the access in CAUSE, and nothing else changes
(R212). The spec marks as its own: R212 (decision D11). What the ports carried is recorded by log entries 3 and 24. -/
def Obligations.WriteOfRomIsIgnoredOrAborts : Prop :=
  ∀ (s : State) (w : Width) (a : Addr) (v : Data) (i : Nat) (r : Region), s.phase = .run → DisjointSpans s.rt →
    s.rt[i]? = some r → contains r a w = true → r.kind = .rom →
    (s.cfg.invPolicy = .degrade →
      exec (writeCommand w a v) s = .next { s with out := { response := some {} } }) ∧
    (s.cfg.invPolicy = .abort →
      exec (writeCommand w a v) s =
        .next { s with phase := .aborted,
                       cause := { code := .readOnlyViolation, addr := a, size := BitVec.ofNat 64 w.bytes,
                                  dir := .write, region := some i },
                       out := { response := some { err := .readOnlyViolation } } })

/-- An unmapped access under UNMAPPED_POLICY = DEGRADE (R147, R203): a read returns the low bits of UNMAPPED_FILL, a
write is discarded whole, and nothing else changes. The spec marks as its own: R147 (decision D10). What the ports
carried is recorded by log entries 3 and 24. -/
def Obligations.UnmappedAccessDegrades : Prop :=
  ∀ (s : State) (w : Width) (a : Addr) (v : Data), s.phase = .run → (∀ r ∈ s.rt, contains r a w = false) →
    s.cfg.unmappedPolicy = .degrade →
    exec (readCommand w a) s =
        .next { s with out :=
          ⟨some ⟨.none, BitVec.ofNat 64 (s.cfg.unmappedFill.toNat % 2 ^ (8 * w.bytes)), none⟩, [], none, false⟩ } ∧
      exec (writeCommand w a v) s = .next { s with out := { response := some {} } }

/-- An unmapped access under UNMAPPED_POLICY = ABORT (R147, R203, R212): the machine ends in ABORTED with the
address, the width and the direction in CAUSE, and nothing else changes. The spec marks as its own: R147 (decision
D10), R212 (decision D11). What the ports carried is recorded by log entries 3 and 24. -/
def Obligations.UnmappedAccessAborts : Prop :=
  ∀ (s : State) (w : Width) (a : Addr) (v : Data), s.phase = .run → (∀ r ∈ s.rt, contains r a w = false) →
    s.cfg.unmappedPolicy = .abort →
    exec (readCommand w a) s =
        .next { s with phase := .aborted,
                       cause := { code := .unmappedAccess, addr := a, size := BitVec.ofNat 64 w.bytes, dir := .read,
                                  region := none },
                       out := { response := some { err := .unmappedAccess } } } ∧
      exec (writeCommand w a v) s =
        .next { s with phase := .aborted,
                       cause := { code := .unmappedAccess, addr := a, size := BitVec.ofNat 64 w.bytes, dir := .write,
                                  region := none },
                       out := { response := some { err := .unmappedAccess } } }

/-- READn of a window bound to the stub (R186): 0 for every width and byte order, one record in DIAG under the
Region's name, one device call, and nothing else changes, whatever the straps are. The one call is R181. The spec
marks as its own: R181 (decision D17). What the ports carried is recorded by log entries 3, 24 and 34. -/
def Obligations.StubReadReturnsZeroAndIsDiagnosed : Prop :=
  ∀ (s : State) (w : Width) (a : Addr) (i : Nat) (r : Region) (be : ByteOrder), s.phase = .run → DisjointSpans s.rt →
    s.rt[i]? = some r → contains r a w = true → r.kind = .mmio be 0#8 →
    exec (readCommand w a) s =
      .next { s with diag := s.diag ++ [⟨r.name, a - r.base, .read⟩],
                     out := { response := some {}, devCalls := [⟨0#8, .read, w, a - r.base, 0, 0⟩] } }

/-- WRITEn of a window bound to the stub (R187): the value, adapted, is handed to the stub and lost; one record in
DIAG under the Region's name, one device call, and nothing else changes, whatever the straps are; a later read of the
same offset, of any width that fits, returns 0. The one call is R181, its adapted value R179. The spec marks as its
own: R179 (decision D5), R181 (decision D17). What the ports carried is recorded by log entries 3, 24 and 34. -/
def Obligations.StubWriteIsDiscardedAndDiagnosed : Prop :=
  ∀ (s : State) (w : Width) (a : Addr) (v : Data) (i : Nat) (r : Region) (be : ByteOrder), s.phase = .run →
    DisjointSpans s.rt → s.rt[i]? = some r → contains r a w = true → r.kind = .mmio be 0#8 →
    ∃ t, exec (writeCommand w a v) s = .next t ∧
      t = { s with diag := s.diag ++ [⟨r.name, a - r.base, .write⟩],
                   out := { response := some {},
                            devCalls := [⟨0#8, .write, w, a - r.base, adapt w v s.cpuBe be, 0⟩] } } ∧
      ∀ w' : Width, contains r a w' = true →
        ∃ u, exec (readCommand w' a) t = .next u ∧ u.out.response = some {}

/-- One access, one call (R181, R182, R183, R189): on a machine with any handlers an access that resolves to an MMIO
Region with a bound handler completes with `err` 0, PHASE and CAUSE unchanged, exactly one call of that handler with
the access's direction, its unchanged width and its unaligned offset, and a write hands over a value below 2^(8n) (a
read's call has 0 there: log entry 34); no store, table entry or CPU parameter changes. The spec marks as its own:
R181 (decision D17), R182 (decision D6), R183 (decision D6). -/
def Obligations.MmioAccessMakesOneCallAndNeverFails : Prop :=
  ∀ (hs : HandlerId → Option Handler) (s : State) (dir : Dir) (w : Width) (a : Addr) (v : Data) (i : Nat) (r : Region)
    (be : ByteOrder) (id : HandlerId) (h : Handler), s.phase = .run → DisjointSpans s.rt → s.rt[i]? = some r →
    contains r a w = true → r.kind = .mmio be id → hs id = some h →
    ∃ t c, accessWith hs dir w a v s = .next t ∧
      t = { s with dev := t.dev, diag := t.diag, out := t.out } ∧
      (t.out.response.map Response.err) = some .none ∧ t.out.devCalls = [c] ∧
      c.handler = id ∧ c.dir = dir ∧ c.width = w ∧ c.offset = a - r.base ∧ c.wdata.toNat < 2 ^ (8 * w.bytes)

/-- R189: an MMIO access never faults: on a machine with any handlers it responds `err` 0 with PHASE still RUN, and
the policy straps do not affect it. -/
def Obligations.MmioAccessIgnoresThePolicies : Prop :=
  ∀ (hs : HandlerId → Option Handler) (s : State) (dir : Dir) (w : Width) (a : Addr) (v : Data) (i : Nat) (r : Region)
    (be : ByteOrder) (id : HandlerId) (h : Handler), s.phase = .run → DisjointSpans s.rt → s.rt[i]? = some r →
    contains r a w = true → r.kind = .mmio be id → hs id = some h →
    ∃ t, accessWith hs dir w a v s = .next t ∧ t.phase = .run ∧ t.cause = s.cause ∧
      t.out.response.map Response.err = some .none ∧
      ∀ c : Cfg, accessWith hs dir w a v { s with cfg := c } = .next { t with cfg := c }

/-- Unknown offsets (R185): on a machine with any handlers, an access to an offset its handler does not implement
reads 0 or is discarded, appends one record to DIAG, and leaves every device state unchanged. That the dispatch layer
itself answers and logs for an offset the handler does not know is log entry 13. What the ports carried is recorded
by log entries 3 and 24. -/
def Obligations.UnknownOffsetIsDiagnosedOnly : Prop :=
  ∀ (hs : HandlerId → Option Handler) (s : State) (dir : Dir) (w : Width) (a : Addr) (v : Data) (i : Nat) (r : Region)
    (be : ByteOrder) (id : HandlerId) (h : Handler), s.phase = .run → DisjointSpans s.rt → s.rt[i]? = some r →
    contains r a w = true → r.kind = .mmio be id → hs id = some h → h.knows (a - r.base) = false →
    ∃ t, accessWith hs dir w a v s = .next t ∧ t.out.response = some {} ∧
      t = { s with diag := s.diag ++ [⟨r.name, a - r.base, dir⟩], out := t.out }

/-- Reading a known offset of a device (R177, R179, R181, R184), on a machine with any handlers: one call, with the
offset and the unchanged width; the word the handler returns is cut to the width, then adapted between the Region's
byte order and CPU_BE; a device with state keeps its new state, a stateless one has none to keep (log entry 15); no
other device state and nothing else changes, DIAG not either (log entry 13: at a known offset nothing is diagnosed).
The spec marks as its own: R179 (decision D5), R181 (decision D17), R184 (decision D17). What the ports carried is
recorded by log entries 3, 24 and 34. -/
def Obligations.DeviceReadIsCutAndAdapted : Prop :=
  ∀ (hs : HandlerId → Option Handler) (s : State) (w : Width) (a : Addr) (v : Data) (i : Nat) (r : Region)
    (be : ByteOrder) (id : HandlerId) (h : Handler), s.phase = .run → DisjointSpans s.rt → s.rt[i]? = some r →
    contains r a w = true → r.kind = .mmio be id → hs id = some h → h.knows (a - r.base) = true →
    ∃ t, accessWith hs .read w a v s = .next t ∧ t = { s with dev := t.dev, out := t.out } ∧
      t.out.response = some ⟨.none,
        adapt w (BitVec.ofNat 64 ((h.read (s.devState id) (a - r.base) w).2.toNat % 2 ^ (8 * w.bytes))) s.cpuBe be,
        none⟩ ∧
      t.out.devCalls = [⟨id, .read, w, a - r.base, 0, (h.read (s.devState id) (a - r.base) w).2⟩] ∧
      (h.stateless = false → t.devState id = (h.read (s.devState id) (a - r.base) w).1) ∧
      (h.stateless = true → t.dev = s.dev) ∧ ∀ id', id' ≠ id → t.devState id' = s.devState id'

/-- Writing a known offset of a device (R178, R179, R181, R184), on a machine with any handlers: one call, with the
offset, the unchanged width and the value adapted between CPU_BE and the Region's byte order; a device with state
keeps the state its `write` gives, a stateless one has none to keep (log entry 15); no other device state and nothing
else changes, DIAG not either (log entry 13: at a known offset nothing is diagnosed). The spec marks as its own: R179
(decision D5), R181 (decision D17), R184 (decision D17). What the ports carried is recorded by log entries 3, 24 and
34. -/
def Obligations.DeviceWriteIsAdaptedAndKept : Prop :=
  ∀ (hs : HandlerId → Option Handler) (s : State) (w : Width) (a : Addr) (v : Data) (i : Nat) (r : Region)
    (be : ByteOrder) (id : HandlerId) (h : Handler), s.phase = .run → DisjointSpans s.rt → s.rt[i]? = some r →
    contains r a w = true → r.kind = .mmio be id → hs id = some h → h.knows (a - r.base) = true →
    ∃ t, accessWith hs .write w a v s = .next t ∧ t = { s with dev := t.dev, out := t.out } ∧
      t.out = { response := some {}, devCalls := [⟨id, .write, w, a - r.base, adapt w v s.cpuBe be, 0⟩] } ∧
      (h.stateless = false →
        t.devState id = h.write (s.devState id) (a - r.base) w (adapt w v s.cpuBe be)) ∧
      (h.stateless = true → t.dev = s.dev) ∧ ∀ id', id' ≠ id → t.devState id' = s.devState id'

/-- The round trip of R180 (c): if a handler's `read(o, n)` returns the value its last `write(o, n, hv)` received,
then `WRITEn a, V` followed by `READn a` returns `V`, for every width, CPU_BE and Region byte order. The offset is
one the handler knows (log entry 13). The spec marks as its own: R180 (derived). What the ports carried is recorded
by log entries 3 and 24. -/
def Obligations.DeviceRoundTripReturnsTheWrittenValue : Prop :=
  ∀ (hs : HandlerId → Option Handler) (s : State) (w : Width) (a : Addr) (v : Data) (i : Nat) (r : Region)
    (be : ByteOrder) (id : HandlerId) (h : Handler), s.phase = .run → DisjointSpans s.rt → s.rt[i]? = some r →
    contains r a w = true → r.kind = .mmio be id → hs id = some h → h.stateless = false →
    h.knows (a - r.base) = true →
    (∀ (d : DevState) (hv : Data), hv.toNat < 2 ^ (8 * w.bytes) →
      (h.read (h.write d (a - r.base) w hv) (a - r.base) w).2 = hv) →
    ∃ t u, accessWith hs .write w a v s = .next t ∧ accessWith hs .read w a 0 t = .next u ∧
      u.out.response = some { rdata := BitVec.ofNat 64 (v.toNat % 2 ^ (8 * w.bytes)) }

/-- A read's value fits its width: bits above `8n - 1` of `rdata` are 0 (R85, R88). In a response to an error `rdata`
is 0 (log entry 24). The spec marks as its own: R88 (decision D2). -/
def Obligations.ReadValueFitsItsWidth : Prop :=
  ∀ (s t : State) (w : Width) (a : Addr) (resp : Response), exec (readCommand w a) s = .next t →
    t.out.response = some resp → resp.rdata.toNat < 2 ^ (8 * w.bytes)

/-- R146: the eight access commands are accepted only in phase RUN; in BUILD, LOADED, FAILED and ABORTED they are
refused. The spec marks as its own: R146 (decision D13). -/
def Obligations.AccessesAreRefusedOutsideRun : Prop :=
  ∀ (s : State) (w : Width) (a : Addr) (v : Data), s.phase ≠ .run →
    exec (readCommand w a) s = .refused (.notAccepted s.phase) ∧
      exec (writeCommand w a v) s = .refused (.notAccepted s.phase)

/-- R148: an access that answers a next state either responds `err` 0 and leaves PHASE in RUN, or ends the machine
under an ABORT policy with a nonzero `err`; under the two DEGRADE policies only the first can happen. The spec marks
as its own: R148 (derived). What the ports carried is recorded by log entries 3 and 24. -/
def Obligations.AccessCompletesOrEndsTheMachine : Prop :=
  ∀ (s t : State) (dir : Dir) (w : Width) (a : Addr) (v : Data),
    exec (if dir = .read then readCommand w a else writeCommand w a v) s = .next t →
    (t.phase = .run ∧ t.cause = s.cause ∧ t.out.response.map Response.err = some .none) ∨
      (t.phase = .aborted ∧ t.out.response = some { err := t.cause.code } ∧ t.cause.code ≠ .none ∧
        (s.cfg.invPolicy = .abort ∨ s.cfg.unmappedPolicy = .abort))

/-- R151: the out-of-bounds check never fires: no command answers a next state with OutOfBoundsError in CAUSE unless
it was there before. The spec marks as its own: R151 (derived). -/
def Obligations.OutOfBoundsNeverHappens : Prop :=
  ∀ (s t : State) (i : Instr), exec i s = .next t → t.cause.code = .outOfBounds → s.cause.code = .outOfBounds

/-! ### Errors, phases and the whole machine -/

/-- R213: the failing command changes nothing but CAUSE and PHASE, and drives its response. The two sequences are
R211 and R212. The spec marks as its own: R211 (decision D27), R212 (decision D11), R213 (derived). What the ports
carried is recorded by log entries 3 and 24. -/
def Obligations.FailingCommandChangesOnlyCauseAndPhase : Prop :=
  ∀ (s t : State) (i : Instr), exec i s = .next t → t.ended = true →
    t = { s with cause := t.cause, phase := t.phase, out := t.out } ∧ t.cause.code.endsIn = some t.phase ∧
      t.out.response = some { err := t.cause.code }

/-- R214: in FAILED and ABORTED every command is refused, so a step leaves them only by reset. With nothing presented
a step holds the state (R223; log entry 2). The spec marks as its own: R214 (derived). -/
def Obligations.EndedMachineIsLeftOnlyByReset : Prop :=
  ∀ s : State, s.ended = true →
    (∀ i, exec i s = .refused (.notAccepted s.phase)) ∧
      ∀ t, step s = .next t → t = s ∨ ∃ straps rest, s.input = .rst straps :: rest ∧ t.phase = .build

/-- R26: a command the present phase does not accept is refused, and PHASE changes only by the four transitions of
the rule. The spec marks as its own: R26 (decision D13). -/
def Obligations.PhaseDecidesWhatIsAccepted : Prop :=
  ∀ (s : State) (i : Instr),
    (s.phase.accepts i = false → exec i s = .refused (.notAccepted s.phase)) ∧
      ∀ t, exec i s = .next t → s.phase.accepts i = true ∧ (t.phase = s.phase ∨ s.phase.mayBecome t.phase = true)

/-- R118: once PHASE has left BUILD the region table never changes, and in RUN a command changes no more than the
bytes of RAM stores, DIAG, the device states, and PHASE with CAUSE on an abort (and the response). -/
def Obligations.AfterTheBuildOnlyRamAndDevicesChange : Prop :=
  ∀ (s t : State) (i : Instr), exec i s = .next t →
    (s.phase ≠ .build → t.rt = s.rt) ∧
      (s.phase = .run →
        t = { s with stores := t.stores, diag := t.diag, dev := t.dev, phase := t.phase, cause := t.cause,
                     out := t.out } ∧
        (t.phase = .run ∧ t.cause = s.cause ∨ t.phase = .aborted) ∧ t.stores.length = s.stores.length ∧
        ∀ j r, s.rt[j]? = some r → r.kind ≠ .ram → t.store j = s.store j)

/-- A command leaves every entry of RT as it is and appends at most one, only in BUILD (R29 (a), (c)); DIAG is
appended to and never otherwise changed, by at most one record a command (R32); no command writes CFG (R24). The spec
marks as its own: R24 (decision D9), R32 (decision D18). -/
def Obligations.TableAndLogAreAppendOnly : Prop :=
  ∀ (s t : State) (i : Instr), exec i s = .next t →
    t.cfg = s.cfg ∧ (t.rt = s.rt ∨ s.phase = .build ∧ ∃ e, t.rt = s.rt ++ [e]) ∧
      (t.diag = s.diag ∨ ∃ d, t.diag = s.diag ++ [d])

/-- Every command that is not refused gives a response (R9, R85), and pulses `cpu_start` only by START from LOADED
into RUN (R117). The spec marks as its own: R9 (decision D13), R117 (decision D13). -/
def Obligations.EveryNextStateCarriesAResponse : Prop :=
  ∀ (s t : State) (i : Instr), exec i s = .next t →
    t.out.response.isSome = true ∧
      (t.out.cpuStart = true → i = .start ∧ s.phase = .loaded ∧ s.cpuReady = true ∧ t.phase = .run)

/-! ### The step -/

/-- A step runs the decoded command: when the next thing presented is a frame that decodes to a command, the step is
the command's meaning on the state with the frame taken off the list (R22, R34, R235; log entry 1). The spec marks as
its own: R22 (decision D19). -/
def Obligations.StepRunsTheDecodedCommand : Prop :=
  ∀ (s : State) (f : Frame) (rest : List Stimulus) (i : Instr), s.input = .command f :: rest → decode f = .ok i →
    step s = exec i { s with input := rest }

/-- A frame that is no command is refused by the step (R90; what is presented is log entry 1, an image not presented
whole log entry 18), and with nothing presented the ASD holds its state (R223; log entry 2). The spec marks as its
own: R90 (decision D2). -/
def Obligations.StepRefusesReservedAndIdles : Prop :=
  ∀ s : State,
    (∀ (f : Frame) (rest : List Stimulus) (e : DecodeError), s.input = .command f :: rest → decode f = .error e →
        step s = .refused (.undecodable e)) ∧
      (s.input = [] → step s = .next s)

/-- Reset (R36, R230): `rst` puts the state the spec gives a value after reset at that value: PHASE is BUILD, RT is
empty and no store exists, CFG is sampled from the straps, CPU_READY is 0, CAUSE and DIAG are clear. The model's own
choices stand beside it: no device state set since the reset is kept (log entry 12), the ports carry nothing (log
entry 3), the count of resets goes up by one (log entry 10), what the outside will still present stays (log entry
21). The three CPU parameters, unspecified until CPUINIT, are left unsaid. The spec marks as its own: R230 (decision
D13). -/
def Obligations.RstDiscardsAllState : Prop :=
  ∀ (s : State) (straps : BitVec 66) (rest : List Stimulus), s.input = .rst straps :: rest →
    ∃ t, step s = .next t ∧ t.phase = .build ∧ t.rt = [] ∧ t.stores = [] ∧ t.cpuReady = false ∧
      t.cause = { code := .none, addr := 0, size := 0, dir := .read, region := none } ∧ t.diag = [] ∧
      t.cfg.unmappedFill = straps.extractLsb' 2 64 ∧
      (t.cfg.invPolicy = .abort ↔ straps.getLsbD 0 = true) ∧
      (t.cfg.unmappedPolicy = .abort ↔ straps.getLsbD 1 = true) ∧
      t.dev = [] ∧ t.out = {} ∧ t.epoch = s.epoch + 1 ∧ t.input = rest

/-- The invariant `Inv` holds of the reset state, whatever the straps are (R29, R36). What of it is the model's own
is named at the statement that a step keeps it. -/
def Obligations.ResetMeetsTheInvariant : Prop :=
  Inv State.reset ∧ ∀ (straps : BitVec 66) (epoch : Nat) (input : List Stimulus), Inv (State.afterReset straps epoch input)

/-- Every step keeps the invariant, from every state that meets it: the table's spans stay disjoint (R29 (b)); every
entry has its place for a store and every store lies inside its Region (R29 (d)), an MMIO entry having none (R30);
every MMIO entry keeps a bound handler (R29 (d)), and one that has device state serves no second entry (R113; log
entry 14); CAUSE names the error that ended the machine and nothing before (R27, R211, R212, R214); RUN and ABORTED
have CPU_READY (R26, R117); LOADED, RUN and ABORTED have a ROM at LOAD_ADDR (R26, R115). That a store is in canonical
form is log entry 9, that device states are listed once by handler log entry 12: the model's own. The spec marks as
its own: R26 (decision D13), R27 (decision D11), R30 (decision D14), R113 (decision D26), R115 (decision D15), R117
(decision D13), R211 (decision D27), R212 (decision D11), R214 (derived). -/
def Obligations.StepKeepsTheInvariant : Prop :=
  ∀ s t : State, Inv s → step s = .next t → Inv t

/-- No step faults from a state that meets the invariant (R29 (d); the one fault is log entry 22). -/
def Obligations.NoStepFaultsUnderTheInvariant : Prop :=
  ∀ (s : State) (f : Fault), Inv s → step s ≠ .fault f

/-! ### Constants -/

/-- IRQ_TABLE (R216): 32 rows; each of the fifteen named lines holds the source the rule gives it, and that source
has that line; the other seventeen lines, 9, 12 to 16 and 19 to 29, are reserved. The spec marks as its own: R216
(decision D24). -/
def Obligations.IrqTableNamesFifteenLines : Prop :=
  irqTable.length = 32 ∧
    (∀ p ∈ ([(0, .timer), (1, .storage), (2, .cryptoA), (3, .cryptoB), (4, .usbEhci), (5, .usbOhci0), (6, .usbOhci1),
        (7, .sdMmc), (8, .wireless), (10, .gpioSecondaryCore), (11, .gpioPrimaryCore), (17, .resetButton),
        (18, .discInterface), (30, .ipcSecondaryToPrimary), (31, .ipcPrimaryToSecondary)] : List (Nat × IrqSource)),
      irqTable[p.1]? = some (some p.2) ∧ p.2.line.val = p.1) ∧
    (∀ src : IrqSource, irqTable[src.line.val]? = some (some src)) ∧
    ∀ n, n < 32 → (irqTable[n]? = some none ↔ n = 9 ∨ (12 ≤ n ∧ n ≤ 16) ∨ (19 ≤ n ∧ n ≤ 29))
end

