-- ==== Sys2Proof/Laws/Memory.lean ====
section
/-! SUPPORT. The laws of sparse data and of the stores: a read after a write, the frame of a write, and that every
memory operation keeps the canonical form. -/

namespace Sys2Proof.Machine

section assoc

variable {α : Type}

theorem get?_put_self (l : List (Nat × α)) (k : Nat) (v : α) : Assoc.get? (Assoc.put l k v) k = some v := by
  induction l with
  | nil => simp [Assoc.put, Assoc.get?]
  | cons c l ih =>
    obtain ⟨k', w⟩ := c
    rw [Assoc.put]
    split
    · simp [Assoc.get?]
    · split
      · simp [Assoc.get?]
      · rw [Assoc.get?, if_neg (by omega), ih]

theorem get?_put_ne (l : List (Nat × α)) {k j : Nat} (v : α) (h : j ≠ k) :
    Assoc.get? (Assoc.put l k v) j = Assoc.get? l j := by
  induction l with
  | nil => simp [Assoc.put, Assoc.get?, h.symm]
  | cons c l ih =>
    obtain ⟨k', w⟩ := c
    rw [Assoc.put]
    split
    · rw [Assoc.get?, if_neg (by omega)]
    · split
      · rename_i hk
        rw [Assoc.get?, Assoc.get?, if_neg (by omega), if_neg (by omega)]
      · rw [Assoc.get?, Assoc.get?, ih]

theorem sorted_nil : Assoc.Sorted ([] : List (Nat × α)) := List.Pairwise.nil

theorem sorted_cons {k : Nat} {v : α} {l : List (Nat × α)} :
    Assoc.Sorted ((k, v) :: l) ↔ (∀ c ∈ l, k < c.1) ∧ Assoc.Sorted l := by
  unfold Assoc.Sorted
  rw [List.map_cons, List.pairwise_cons]
  simp

theorem mem_put {l : List (Nat × α)} {k : Nat} {v : α} {c : Nat × α} (h : c ∈ Assoc.put l k v) :
    c = (k, v) ∨ c ∈ l := by
  induction l with
  | nil => simpa [Assoc.put] using h
  | cons d l ih =>
    obtain ⟨k', w⟩ := d
    rw [Assoc.put] at h
    split at h
    · simpa using h
    · split at h <;> simp only [List.mem_cons] at h ⊢
      · tauto
      · rcases h with h | h
        · tauto
        · have := ih h; tauto

theorem mem_del {l : List (Nat × α)} {k : Nat} {c : Nat × α} (h : c ∈ Assoc.del l k) : c ∈ l := by
  induction l with
  | nil => simp [Assoc.del] at h
  | cons d l ih =>
    obtain ⟨k', w⟩ := d
    rw [Assoc.del] at h
    split at h <;> simp only [List.mem_cons] at h ⊢
    · exact .inr h
    · exact h.imp_right ih

theorem sorted_put {l : List (Nat × α)} (k : Nat) (v : α) (h : Assoc.Sorted l) : Assoc.Sorted (Assoc.put l k v) := by
  induction l with
  | nil => exact sorted_cons.mpr ⟨by simp, sorted_nil⟩
  | cons d l ih =>
    obtain ⟨k', w⟩ := d
    obtain ⟨h1, h2⟩ := sorted_cons.mp h
    rw [Assoc.put]
    split
    · rename_i hk
      refine sorted_cons.mpr ⟨fun c hc => ?_, h⟩
      rcases List.mem_cons.mp hc with rfl | hc
      · exact hk
      · exact hk.trans (h1 c hc)
    · split
      · rename_i hk
        subst hk
        exact sorted_cons.mpr ⟨h1, h2⟩
      · refine sorted_cons.mpr ⟨fun c hc => ?_, ih h2⟩
        rcases mem_put hc with rfl | hc
        · simp only; omega
        · exact h1 c hc

theorem sorted_del {l : List (Nat × α)} (k : Nat) (h : Assoc.Sorted l) : Assoc.Sorted (Assoc.del l k) := by
  induction l with
  | nil => exact sorted_nil
  | cons d l ih =>
    obtain ⟨k', w⟩ := d
    obtain ⟨h1, h2⟩ := sorted_cons.mp h
    rw [Assoc.del]
    split
    · exact h2
    · exact sorted_cons.mpr ⟨fun c hc => h1 c (mem_del hc), ih h2⟩

theorem get?_eq_none_of_forall {l : List (Nat × α)} {k : Nat} (h : ∀ c ∈ l, c.1 ≠ k) : Assoc.get? l k = none := by
  induction l with
  | nil => rfl
  | cons d l ih =>
    obtain ⟨k', w⟩ := d
    rw [Assoc.get?, if_neg (h (k', w) (by simp)), ih fun c hc => h c (by simp [hc])]

theorem get?_del_self {l : List (Nat × α)} (k : Nat) (h : Assoc.Sorted l) : Assoc.get? (Assoc.del l k) k = none := by
  induction l with
  | nil => rfl
  | cons d l ih =>
    obtain ⟨k', w⟩ := d
    obtain ⟨h1, h2⟩ := sorted_cons.mp h
    rw [Assoc.del]
    split
    · rename_i hk
      exact get?_eq_none_of_forall fun c hc => by have := h1 c hc; omega
    · rw [Assoc.get?, if_neg (by omega), ih h2]

theorem get?_del_ne (l : List (Nat × α)) {k j : Nat} (h : j ≠ k) : Assoc.get? (Assoc.del l k) j = Assoc.get? l j := by
  induction l with
  | nil => rfl
  | cons d l ih =>
    obtain ⟨k', w⟩ := d
    rw [Assoc.del]
    split
    · rw [Assoc.get?, if_neg (by omega)]
    · rw [Assoc.get?, Assoc.get?, ih]

theorem mem_of_get? {l : List (Nat × α)} {k : Nat} {v : α} (h : Assoc.get? l k = some v) : (k, v) ∈ l := by
  induction l with
  | nil => simp [Assoc.get?] at h
  | cons d l ih =>
    obtain ⟨k', w⟩ := d
    rw [Assoc.get?] at h
    split at h
    · rename_i hk
      simp_all
    · exact List.mem_cons_of_mem _ (ih h)

end assoc

section stores

variable {epoch i : Nat} {k : RegionKind} {m : Memory}

theorem byte_poke_self (o : Nat) (b : Byte) (h : Assoc.Sorted m) :
    Memory.byte epoch i k (Memory.poke k m o b) o = b := by
  unfold Memory.poke
  split
  · rename_i hb
    rw [Memory.byte, get?_del_self o h, hb]
  · rw [Memory.byte, get?_put_self]

theorem byte_poke_ne {o j : Nat} (b : Byte) (h : j ≠ o) :
    Memory.byte epoch i k (Memory.poke k m o b) j = Memory.byte epoch i k m j := by
  unfold Memory.poke
  split
  · rw [Memory.byte, get?_del_ne _ h, Memory.byte]
  · rw [Memory.byte, get?_put_ne _ _ h, Memory.byte]

theorem sorted_poke (o : Nat) (b : Byte) (h : Assoc.Sorted m) : Assoc.Sorted (Memory.poke k m o b) := by
  unfold Memory.poke
  split
  · exact sorted_del o h
  · exact sorted_put o b h

theorem wf_poke {size o : Nat} (b : Byte) (h : Memory.wf k size m) (ho : o < size) :
    Memory.wf k size (Memory.poke k m o b) := by
  refine ⟨sorted_poke o b h.1, fun c hc => ?_⟩
  unfold Memory.poke at hc
  split at hc
  · exact h.2 c (mem_del hc)
  · rename_i hb
    rcases mem_put hc with rfl | hc
    · exact ⟨hb, ho⟩
    · exact h.2 c hc

theorem sorted_pokeAll (bs : List Byte) : ∀ (m : Memory) (o : Nat), Assoc.Sorted m →
    Assoc.Sorted (Memory.pokeAll k m o bs) := by
  induction bs with
  | nil => exact fun m o h => h
  | cons b bs ih => exact fun m o h => ih _ _ (sorted_poke o b h)

theorem wf_pokeAll {size : Nat} (bs : List Byte) : ∀ (m : Memory) (o : Nat), Memory.wf k size m →
    o + bs.length ≤ size → Memory.wf k size (Memory.pokeAll k m o bs) := by
  induction bs with
  | nil => exact fun m o h _ => h
  | cons b bs ih =>
    intro m o h ho
    simp only [List.length_cons] at ho
    exact ih _ _ (wf_poke b h (by omega)) (by omega)

theorem byte_pokeAll_outside {j : Nat} (bs : List Byte) : ∀ (m : Memory) (o : Nat), j < o ∨ o + bs.length ≤ j →
    Memory.byte epoch i k (Memory.pokeAll k m o bs) j = Memory.byte epoch i k m j := by
  induction bs with
  | nil => exact fun m o _ => rfl
  | cons b bs ih =>
    intro m o h
    simp only [List.length_cons] at h
    rw [Memory.pokeAll, ih _ _ (by omega), byte_poke_ne b (by omega)]

theorem byte_pokeAll_inside (bs : List Byte) : ∀ (m : Memory) (o j : Nat), Assoc.Sorted m → (hj : j < bs.length) →
    Memory.byte epoch i k (Memory.pokeAll k m o bs) (o + j) = bs[j] := by
  induction bs with
  | nil => exact fun m o j _ hj => absurd hj (by simp)
  | cons b bs ih =>
    intro m o j h hj
    rw [Memory.pokeAll]
    cases j with
    | zero =>
      rw [byte_pokeAll_outside bs _ _ (by omega)]
      exact byte_poke_self o b h
    | succ j =>
      have := ih (Memory.poke k m o b) (o + 1) j (sorted_poke o b h) (by simpa using hj)
      rw [show o + (j + 1) = o + 1 + j by omega, this]
      simp

theorem wf_nil (k : RegionKind) (size : Nat) : Memory.wf k size [] := ⟨sorted_nil, by simp⟩

end stores

/-- The memory of the reset state has the canonical form: it has no store at all. -/
theorem reset_stores_wf (i : Nat) (k : RegionKind) (size : Nat) : Memory.wf k size (State.reset.store i) := by
  simpa [State.reset, State.afterReset, State.store] using wf_nil k size

theorem bytesAt_length (s : State) (i : Nat) (k : RegionKind) (o n : Nat) : (s.bytesAt i k o n).length = n := by
  simp [State.bytesAt]

theorem store_setStore_self (s : State) {i : Nat} (m : Memory) (h : i < s.stores.length) :
    (s.setStore i m).store i = m := by
  simp [State.store, State.setStore, h]

theorem store_setStore_ne (s : State) {i j : Nat} (m : Memory) (h : j ≠ i) : (s.setStore i m).store j = s.store j := by
  simp [State.store, State.setStore, h.symm]

end Sys2Proof.Machine
end

