-- ==== Sys2Proof/Laws/Operands.lean ====
section
/-! SUPPORT. The laws of bytes and values over the naturals (20_memory R52). -/

namespace Sys2Proof.Machine

theorem width_bytes_pos (w : Width) : 0 < w.bytes := by cases w <;> decide

theorem width_bytes_le (w : Width) : w.bytes ≤ 8 := by cases w <;> decide

theorem width_pow_le (w : Width) : 256 ^ w.bytes ≤ 2 ^ 64 := by cases w <;> decide

theorem natToBytes_length (n : Nat) : ∀ v, (natToBytes n v).length = n := by
  induction n with
  | zero => exact fun v => rfl
  | succ n ih => exact fun v => by rw [natToBytes, List.length_cons, ih]

theorem split_length (e : ByteOrder) (v : Data) (w : Width) : (split e v w).length = w.bytes := by
  cases e <;> simp [split, natToBytes_length]

theorem bytesToNat_lt (bs : List Byte) : bytesToNat bs < 256 ^ bs.length := by
  induction bs with
  | nil => simp [bytesToNat]
  | cons b bs ih =>
    have := b.isLt
    rw [bytesToNat, List.length_cons, Nat.pow_succ]
    omega

theorem bytesToNat_natToBytes (n : Nat) : ∀ v, bytesToNat (natToBytes n v) = v % 256 ^ n := by
  induction n with
  | zero => intro v; simp [natToBytes, bytesToNat, Nat.mod_one]
  | succ n ih =>
    intro v
    rw [natToBytes, bytesToNat, ih, BitVec.toNat_ofNat, show 256 ^ (n + 1) = 256 * 256 ^ n by rw [Nat.pow_succ, Nat.mul_comm],
      Nat.mod_mul]

theorem natToBytes_bytesToNat (bs : List Byte) : natToBytes bs.length (bytesToNat bs) = bs := by
  induction bs with
  | nil => rfl
  | cons b bs ih =>
    have hb := b.isLt
    rw [List.length_cons, bytesToNat, natToBytes]
    congr 1
    · apply BitVec.eq_of_toNat_eq
      rw [BitVec.toNat_ofNat]
      omega
    · rw [show (b.toNat + 256 * bytesToNat bs) / 256 = bytesToNat bs by omega, ih]

end Sys2Proof.Machine
end

