-- ==== Sys2Proof/Laws/State.lean ====
section
/-! SUPPORT. One lemma per field per update of the state, so that no proof unfolds a record update. -/

namespace Sys2Proof.Machine

@[simp] theorem drive_cfg (s : State) (o : Output) :
    (s.drive o).cfg = s.cfg := rfl
@[simp] theorem drive_cpuVariant (s : State) (o : Output) :
    (s.drive o).cpuVariant = s.cpuVariant := rfl
@[simp] theorem drive_cpuBe (s : State) (o : Output) :
    (s.drive o).cpuBe = s.cpuBe := rfl
@[simp] theorem drive_cpuVec (s : State) (o : Output) :
    (s.drive o).cpuVec = s.cpuVec := rfl
@[simp] theorem drive_cpuReady (s : State) (o : Output) :
    (s.drive o).cpuReady = s.cpuReady := rfl
@[simp] theorem drive_phase (s : State) (o : Output) :
    (s.drive o).phase = s.phase := rfl
@[simp] theorem drive_cause (s : State) (o : Output) :
    (s.drive o).cause = s.cause := rfl
@[simp] theorem drive_rt (s : State) (o : Output) :
    (s.drive o).rt = s.rt := rfl
@[simp] theorem drive_stores (s : State) (o : Output) :
    (s.drive o).stores = s.stores := rfl
@[simp] theorem drive_dev (s : State) (o : Output) :
    (s.drive o).dev = s.dev := rfl
@[simp] theorem drive_diag (s : State) (o : Output) :
    (s.drive o).diag = s.diag := rfl
@[simp] theorem drive_epoch (s : State) (o : Output) :
    (s.drive o).epoch = s.epoch := rfl
@[simp] theorem drive_out (s : State) (o : Output) :
    (s.drive o).out = o := rfl
@[simp] theorem drive_input (s : State) (o : Output) :
    (s.drive o).input = s.input := rfl

@[simp] theorem respond_cfg (s : State) (r : Response) :
    (s.respond r).cfg = s.cfg := rfl
@[simp] theorem respond_cpuVariant (s : State) (r : Response) :
    (s.respond r).cpuVariant = s.cpuVariant := rfl
@[simp] theorem respond_cpuBe (s : State) (r : Response) :
    (s.respond r).cpuBe = s.cpuBe := rfl
@[simp] theorem respond_cpuVec (s : State) (r : Response) :
    (s.respond r).cpuVec = s.cpuVec := rfl
@[simp] theorem respond_cpuReady (s : State) (r : Response) :
    (s.respond r).cpuReady = s.cpuReady := rfl
@[simp] theorem respond_phase (s : State) (r : Response) :
    (s.respond r).phase = s.phase := rfl
@[simp] theorem respond_cause (s : State) (r : Response) :
    (s.respond r).cause = s.cause := rfl
@[simp] theorem respond_rt (s : State) (r : Response) :
    (s.respond r).rt = s.rt := rfl
@[simp] theorem respond_stores (s : State) (r : Response) :
    (s.respond r).stores = s.stores := rfl
@[simp] theorem respond_dev (s : State) (r : Response) :
    (s.respond r).dev = s.dev := rfl
@[simp] theorem respond_diag (s : State) (r : Response) :
    (s.respond r).diag = s.diag := rfl
@[simp] theorem respond_epoch (s : State) (r : Response) :
    (s.respond r).epoch = s.epoch := rfl
@[simp] theorem respond_out (s : State) (r : Response) :
    (s.respond r).out = { response := some r } := rfl
@[simp] theorem respond_input (s : State) (r : Response) :
    (s.respond r).input = s.input := rfl

@[simp] theorem setStore_cfg (s : State) (i : Nat) (m : Memory) :
    (s.setStore i m).cfg = s.cfg := rfl
@[simp] theorem setStore_cpuVariant (s : State) (i : Nat) (m : Memory) :
    (s.setStore i m).cpuVariant = s.cpuVariant := rfl
@[simp] theorem setStore_cpuBe (s : State) (i : Nat) (m : Memory) :
    (s.setStore i m).cpuBe = s.cpuBe := rfl
@[simp] theorem setStore_cpuVec (s : State) (i : Nat) (m : Memory) :
    (s.setStore i m).cpuVec = s.cpuVec := rfl
@[simp] theorem setStore_cpuReady (s : State) (i : Nat) (m : Memory) :
    (s.setStore i m).cpuReady = s.cpuReady := rfl
@[simp] theorem setStore_phase (s : State) (i : Nat) (m : Memory) :
    (s.setStore i m).phase = s.phase := rfl
@[simp] theorem setStore_cause (s : State) (i : Nat) (m : Memory) :
    (s.setStore i m).cause = s.cause := rfl
@[simp] theorem setStore_rt (s : State) (i : Nat) (m : Memory) :
    (s.setStore i m).rt = s.rt := rfl
@[simp] theorem setStore_stores (s : State) (i : Nat) (m : Memory) :
    (s.setStore i m).stores = s.stores.set i m := rfl
@[simp] theorem setStore_dev (s : State) (i : Nat) (m : Memory) :
    (s.setStore i m).dev = s.dev := rfl
@[simp] theorem setStore_diag (s : State) (i : Nat) (m : Memory) :
    (s.setStore i m).diag = s.diag := rfl
@[simp] theorem setStore_epoch (s : State) (i : Nat) (m : Memory) :
    (s.setStore i m).epoch = s.epoch := rfl
@[simp] theorem setStore_out (s : State) (i : Nat) (m : Memory) :
    (s.setStore i m).out = s.out := rfl
@[simp] theorem setStore_input (s : State) (i : Nat) (m : Memory) :
    (s.setStore i m).input = s.input := rfl

@[simp] theorem setDev_cfg (s : State) (h : HandlerId) (d : DevState) :
    (s.setDev h d).cfg = s.cfg := rfl
@[simp] theorem setDev_cpuVariant (s : State) (h : HandlerId) (d : DevState) :
    (s.setDev h d).cpuVariant = s.cpuVariant := rfl
@[simp] theorem setDev_cpuBe (s : State) (h : HandlerId) (d : DevState) :
    (s.setDev h d).cpuBe = s.cpuBe := rfl
@[simp] theorem setDev_cpuVec (s : State) (h : HandlerId) (d : DevState) :
    (s.setDev h d).cpuVec = s.cpuVec := rfl
@[simp] theorem setDev_cpuReady (s : State) (h : HandlerId) (d : DevState) :
    (s.setDev h d).cpuReady = s.cpuReady := rfl
@[simp] theorem setDev_phase (s : State) (h : HandlerId) (d : DevState) :
    (s.setDev h d).phase = s.phase := rfl
@[simp] theorem setDev_cause (s : State) (h : HandlerId) (d : DevState) :
    (s.setDev h d).cause = s.cause := rfl
@[simp] theorem setDev_rt (s : State) (h : HandlerId) (d : DevState) :
    (s.setDev h d).rt = s.rt := rfl
@[simp] theorem setDev_stores (s : State) (h : HandlerId) (d : DevState) :
    (s.setDev h d).stores = s.stores := rfl
@[simp] theorem setDev_dev (s : State) (h : HandlerId) (d : DevState) :
    (s.setDev h d).dev = Assoc.put s.dev h.toNat d := rfl
@[simp] theorem setDev_diag (s : State) (h : HandlerId) (d : DevState) :
    (s.setDev h d).diag = s.diag := rfl
@[simp] theorem setDev_epoch (s : State) (h : HandlerId) (d : DevState) :
    (s.setDev h d).epoch = s.epoch := rfl
@[simp] theorem setDev_out (s : State) (h : HandlerId) (d : DevState) :
    (s.setDev h d).out = s.out := rfl
@[simp] theorem setDev_input (s : State) (h : HandlerId) (d : DevState) :
    (s.setDev h d).input = s.input := rfl

@[simp] theorem logDiag_cfg (s : State) (d : DiagRecord) :
    (s.logDiag d).cfg = s.cfg := rfl
@[simp] theorem logDiag_cpuVariant (s : State) (d : DiagRecord) :
    (s.logDiag d).cpuVariant = s.cpuVariant := rfl
@[simp] theorem logDiag_cpuBe (s : State) (d : DiagRecord) :
    (s.logDiag d).cpuBe = s.cpuBe := rfl
@[simp] theorem logDiag_cpuVec (s : State) (d : DiagRecord) :
    (s.logDiag d).cpuVec = s.cpuVec := rfl
@[simp] theorem logDiag_cpuReady (s : State) (d : DiagRecord) :
    (s.logDiag d).cpuReady = s.cpuReady := rfl
@[simp] theorem logDiag_phase (s : State) (d : DiagRecord) :
    (s.logDiag d).phase = s.phase := rfl
@[simp] theorem logDiag_cause (s : State) (d : DiagRecord) :
    (s.logDiag d).cause = s.cause := rfl
@[simp] theorem logDiag_rt (s : State) (d : DiagRecord) :
    (s.logDiag d).rt = s.rt := rfl
@[simp] theorem logDiag_stores (s : State) (d : DiagRecord) :
    (s.logDiag d).stores = s.stores := rfl
@[simp] theorem logDiag_dev (s : State) (d : DiagRecord) :
    (s.logDiag d).dev = s.dev := rfl
@[simp] theorem logDiag_diag (s : State) (d : DiagRecord) :
    (s.logDiag d).diag = s.diag ++ [d] := rfl
@[simp] theorem logDiag_epoch (s : State) (d : DiagRecord) :
    (s.logDiag d).epoch = s.epoch := rfl
@[simp] theorem logDiag_out (s : State) (d : DiagRecord) :
    (s.logDiag d).out = s.out := rfl
@[simp] theorem logDiag_input (s : State) (d : DiagRecord) :
    (s.logDiag d).input = s.input := rfl

@[simp] theorem startupFail_cfg (c : Cause) (s : State) :
    (startupFail c s).cfg = s.cfg := rfl
@[simp] theorem startupFail_cpuVariant (c : Cause) (s : State) :
    (startupFail c s).cpuVariant = s.cpuVariant := rfl
@[simp] theorem startupFail_cpuBe (c : Cause) (s : State) :
    (startupFail c s).cpuBe = s.cpuBe := rfl
@[simp] theorem startupFail_cpuVec (c : Cause) (s : State) :
    (startupFail c s).cpuVec = s.cpuVec := rfl
@[simp] theorem startupFail_cpuReady (c : Cause) (s : State) :
    (startupFail c s).cpuReady = s.cpuReady := rfl
@[simp] theorem startupFail_phase (c : Cause) (s : State) :
    (startupFail c s).phase = .failed := rfl
@[simp] theorem startupFail_cause (c : Cause) (s : State) :
    (startupFail c s).cause = c := rfl
@[simp] theorem startupFail_rt (c : Cause) (s : State) :
    (startupFail c s).rt = s.rt := rfl
@[simp] theorem startupFail_stores (c : Cause) (s : State) :
    (startupFail c s).stores = s.stores := rfl
@[simp] theorem startupFail_dev (c : Cause) (s : State) :
    (startupFail c s).dev = s.dev := rfl
@[simp] theorem startupFail_diag (c : Cause) (s : State) :
    (startupFail c s).diag = s.diag := rfl
@[simp] theorem startupFail_epoch (c : Cause) (s : State) :
    (startupFail c s).epoch = s.epoch := rfl
@[simp] theorem startupFail_out (c : Cause) (s : State) :
    (startupFail c s).out = { response := some { err := c.code } } := rfl
@[simp] theorem startupFail_input (c : Cause) (s : State) :
    (startupFail c s).input = s.input := rfl

@[simp] theorem runtimeAbort_cfg (c : Cause) (s : State) :
    (runtimeAbort c s).cfg = s.cfg := rfl
@[simp] theorem runtimeAbort_cpuVariant (c : Cause) (s : State) :
    (runtimeAbort c s).cpuVariant = s.cpuVariant := rfl
@[simp] theorem runtimeAbort_cpuBe (c : Cause) (s : State) :
    (runtimeAbort c s).cpuBe = s.cpuBe := rfl
@[simp] theorem runtimeAbort_cpuVec (c : Cause) (s : State) :
    (runtimeAbort c s).cpuVec = s.cpuVec := rfl
@[simp] theorem runtimeAbort_cpuReady (c : Cause) (s : State) :
    (runtimeAbort c s).cpuReady = s.cpuReady := rfl
@[simp] theorem runtimeAbort_phase (c : Cause) (s : State) :
    (runtimeAbort c s).phase = .aborted := rfl
@[simp] theorem runtimeAbort_cause (c : Cause) (s : State) :
    (runtimeAbort c s).cause = c := rfl
@[simp] theorem runtimeAbort_rt (c : Cause) (s : State) :
    (runtimeAbort c s).rt = s.rt := rfl
@[simp] theorem runtimeAbort_stores (c : Cause) (s : State) :
    (runtimeAbort c s).stores = s.stores := rfl
@[simp] theorem runtimeAbort_dev (c : Cause) (s : State) :
    (runtimeAbort c s).dev = s.dev := rfl
@[simp] theorem runtimeAbort_diag (c : Cause) (s : State) :
    (runtimeAbort c s).diag = s.diag := rfl
@[simp] theorem runtimeAbort_epoch (c : Cause) (s : State) :
    (runtimeAbort c s).epoch = s.epoch := rfl
@[simp] theorem runtimeAbort_out (c : Cause) (s : State) :
    (runtimeAbort c s).out = { response := some { err := c.code } } := rfl
@[simp] theorem runtimeAbort_input (c : Cause) (s : State) :
    (runtimeAbort c s).input = s.input := rfl

@[simp] theorem appendRegion_cfg (rt' : List Region) (s : State) :
    (appendRegion rt' s).cfg = s.cfg := rfl
@[simp] theorem appendRegion_cpuVariant (rt' : List Region) (s : State) :
    (appendRegion rt' s).cpuVariant = s.cpuVariant := rfl
@[simp] theorem appendRegion_cpuBe (rt' : List Region) (s : State) :
    (appendRegion rt' s).cpuBe = s.cpuBe := rfl
@[simp] theorem appendRegion_cpuVec (rt' : List Region) (s : State) :
    (appendRegion rt' s).cpuVec = s.cpuVec := rfl
@[simp] theorem appendRegion_cpuReady (rt' : List Region) (s : State) :
    (appendRegion rt' s).cpuReady = s.cpuReady := rfl
@[simp] theorem appendRegion_phase (rt' : List Region) (s : State) :
    (appendRegion rt' s).phase = s.phase := rfl
@[simp] theorem appendRegion_cause (rt' : List Region) (s : State) :
    (appendRegion rt' s).cause = s.cause := rfl
@[simp] theorem appendRegion_rt (rt' : List Region) (s : State) :
    (appendRegion rt' s).rt = rt' := rfl
@[simp] theorem appendRegion_stores (rt' : List Region) (s : State) :
    (appendRegion rt' s).stores = s.stores ++ [[]] := rfl
@[simp] theorem appendRegion_dev (rt' : List Region) (s : State) :
    (appendRegion rt' s).dev = s.dev := rfl
@[simp] theorem appendRegion_diag (rt' : List Region) (s : State) :
    (appendRegion rt' s).diag = s.diag := rfl
@[simp] theorem appendRegion_epoch (rt' : List Region) (s : State) :
    (appendRegion rt' s).epoch = s.epoch := rfl
@[simp] theorem appendRegion_out (rt' : List Region) (s : State) :
    (appendRegion rt' s).out = s.out := rfl
@[simp] theorem appendRegion_input (rt' : List Region) (s : State) :
    (appendRegion rt' s).input = s.input := rfl

@[simp] theorem latchCpu_cfg (v : BitVec 8) (be : ByteOrder) (vec : Bool) (s : State) :
    (latchCpu v be vec s).cfg = s.cfg := rfl
@[simp] theorem latchCpu_cpuVariant (v : BitVec 8) (be : ByteOrder) (vec : Bool) (s : State) :
    (latchCpu v be vec s).cpuVariant = v := rfl
@[simp] theorem latchCpu_cpuBe (v : BitVec 8) (be : ByteOrder) (vec : Bool) (s : State) :
    (latchCpu v be vec s).cpuBe = be := rfl
@[simp] theorem latchCpu_cpuVec (v : BitVec 8) (be : ByteOrder) (vec : Bool) (s : State) :
    (latchCpu v be vec s).cpuVec = vec := rfl
@[simp] theorem latchCpu_cpuReady (v : BitVec 8) (be : ByteOrder) (vec : Bool) (s : State) :
    (latchCpu v be vec s).cpuReady = true := rfl
@[simp] theorem latchCpu_phase (v : BitVec 8) (be : ByteOrder) (vec : Bool) (s : State) :
    (latchCpu v be vec s).phase = s.phase := rfl
@[simp] theorem latchCpu_cause (v : BitVec 8) (be : ByteOrder) (vec : Bool) (s : State) :
    (latchCpu v be vec s).cause = s.cause := rfl
@[simp] theorem latchCpu_rt (v : BitVec 8) (be : ByteOrder) (vec : Bool) (s : State) :
    (latchCpu v be vec s).rt = s.rt := rfl
@[simp] theorem latchCpu_stores (v : BitVec 8) (be : ByteOrder) (vec : Bool) (s : State) :
    (latchCpu v be vec s).stores = s.stores := rfl
@[simp] theorem latchCpu_dev (v : BitVec 8) (be : ByteOrder) (vec : Bool) (s : State) :
    (latchCpu v be vec s).dev = s.dev := rfl
@[simp] theorem latchCpu_diag (v : BitVec 8) (be : ByteOrder) (vec : Bool) (s : State) :
    (latchCpu v be vec s).diag = s.diag := rfl
@[simp] theorem latchCpu_epoch (v : BitVec 8) (be : ByteOrder) (vec : Bool) (s : State) :
    (latchCpu v be vec s).epoch = s.epoch := rfl
@[simp] theorem latchCpu_out (v : BitVec 8) (be : ByteOrder) (vec : Bool) (s : State) :
    (latchCpu v be vec s).out = s.out := rfl
@[simp] theorem latchCpu_input (v : BitVec 8) (be : ByteOrder) (vec : Bool) (s : State) :
    (latchCpu v be vec s).input = s.input := rfl

@[simp] theorem presentFrame_cfg (f : Frame) (s : State) :
    (presentFrame f s).cfg = s.cfg := rfl
@[simp] theorem presentFrame_cpuVariant (f : Frame) (s : State) :
    (presentFrame f s).cpuVariant = s.cpuVariant := rfl
@[simp] theorem presentFrame_cpuBe (f : Frame) (s : State) :
    (presentFrame f s).cpuBe = s.cpuBe := rfl
@[simp] theorem presentFrame_cpuVec (f : Frame) (s : State) :
    (presentFrame f s).cpuVec = s.cpuVec := rfl
@[simp] theorem presentFrame_cpuReady (f : Frame) (s : State) :
    (presentFrame f s).cpuReady = s.cpuReady := rfl
@[simp] theorem presentFrame_phase (f : Frame) (s : State) :
    (presentFrame f s).phase = s.phase := rfl
@[simp] theorem presentFrame_cause (f : Frame) (s : State) :
    (presentFrame f s).cause = s.cause := rfl
@[simp] theorem presentFrame_rt (f : Frame) (s : State) :
    (presentFrame f s).rt = s.rt := rfl
@[simp] theorem presentFrame_stores (f : Frame) (s : State) :
    (presentFrame f s).stores = s.stores := rfl
@[simp] theorem presentFrame_dev (f : Frame) (s : State) :
    (presentFrame f s).dev = s.dev := rfl
@[simp] theorem presentFrame_diag (f : Frame) (s : State) :
    (presentFrame f s).diag = s.diag := rfl
@[simp] theorem presentFrame_epoch (f : Frame) (s : State) :
    (presentFrame f s).epoch = s.epoch := rfl
@[simp] theorem presentFrame_out (f : Frame) (s : State) :
    (presentFrame f s).out = s.out := rfl
@[simp] theorem presentFrame_input (f : Frame) (s : State) :
    (presentFrame f s).input = .command f :: s.input := rfl

@[simp] theorem afterReset_cfg (x : BitVec 66) (e : Nat) (inp : List Stimulus) :
    (State.afterReset x e inp).cfg = Cfg.ofStraps x := rfl
@[simp] theorem afterReset_cpuVariant (x : BitVec 66) (e : Nat) (inp : List Stimulus) :
    (State.afterReset x e inp).cpuVariant = 0 := rfl
@[simp] theorem afterReset_cpuBe (x : BitVec 66) (e : Nat) (inp : List Stimulus) :
    (State.afterReset x e inp).cpuBe = .little := rfl
@[simp] theorem afterReset_cpuVec (x : BitVec 66) (e : Nat) (inp : List Stimulus) :
    (State.afterReset x e inp).cpuVec = false := rfl
@[simp] theorem afterReset_cpuReady (x : BitVec 66) (e : Nat) (inp : List Stimulus) :
    (State.afterReset x e inp).cpuReady = false := rfl
@[simp] theorem afterReset_phase (x : BitVec 66) (e : Nat) (inp : List Stimulus) :
    (State.afterReset x e inp).phase = .build := rfl
@[simp] theorem afterReset_cause (x : BitVec 66) (e : Nat) (inp : List Stimulus) :
    (State.afterReset x e inp).cause = {} := rfl
@[simp] theorem afterReset_rt (x : BitVec 66) (e : Nat) (inp : List Stimulus) :
    (State.afterReset x e inp).rt = [] := rfl
@[simp] theorem afterReset_stores (x : BitVec 66) (e : Nat) (inp : List Stimulus) :
    (State.afterReset x e inp).stores = [] := rfl
@[simp] theorem afterReset_dev (x : BitVec 66) (e : Nat) (inp : List Stimulus) :
    (State.afterReset x e inp).dev = [] := rfl
@[simp] theorem afterReset_diag (x : BitVec 66) (e : Nat) (inp : List Stimulus) :
    (State.afterReset x e inp).diag = [] := rfl
@[simp] theorem afterReset_epoch (x : BitVec 66) (e : Nat) (inp : List Stimulus) :
    (State.afterReset x e inp).epoch = e := rfl
@[simp] theorem afterReset_out (x : BitVec 66) (e : Nat) (inp : List Stimulus) :
    (State.afterReset x e inp).out = {} := rfl
@[simp] theorem afterReset_input (x : BitVec 66) (e : Nat) (inp : List Stimulus) :
    (State.afterReset x e inp).input = inp := rfl

end Sys2Proof.Machine
end

