-- ==== Sys2Proof/Laws/Ops.lean ====
section
/-! SUPPORT. What each shared operation can do, said once. -/

namespace Sys2Proof.Machine

theorem contains_iff (r : Region) (a : Addr) (w : Width) :
    contains r a w = true ↔ r.base.toNat ≤ a.toNat ∧ a.toNat + w.bytes ≤ r.limit := by
  simp [contains]

theorem intersects_iff (e f : Region) :
    intersects e f = true ↔ max e.base.toNat f.base.toNat < min e.limit f.limit := by
  simp [intersects]

/-- What `resolveFrom` answers when it answers a Region: the first that contains the access, and its offset. -/
theorem resolveFrom_mapped {rt : List Region} {a : Addr} {w : Width} : ∀ {k i : Nat} {r : Region} {o : Nat},
    resolveFrom k a w rt = .mapped i r o →
      ∃ j, i = k + j ∧ rt[j]? = some r ∧ contains r a w = true ∧ o = a.toNat - r.base.toNat := by
  induction rt with
  | nil => intro k i r o h; simp [resolveFrom] at h
  | cons f rt ih =>
    intro k i r o h
    rw [resolveFrom] at h
    split at h
    · rename_i hc
      cases h
      exact ⟨0, rfl, rfl, hc, rfl⟩
    · obtain ⟨j, rfl, h2, h3, h4⟩ := ih h
      exact ⟨j + 1, by omega, by simpa using h2, h3, h4⟩

theorem resolve_mapped {rt : List Region} {a : Addr} {w : Width} {dir : Dir} {i : Nat} {r : Region} {o : Nat}
    (h : resolve rt a w dir = .mapped i r o) :
    rt[i]? = some r ∧ contains r a w = true ∧ o = a.toNat - r.base.toNat := by
  obtain ⟨j, hj, h2, h3, h4⟩ := resolveFrom_mapped h
  rw [Nat.zero_add] at hj
  subst hj
  exact ⟨h2, h3, h4⟩

/-- A resolved access lies inside its Region: the offset and the width fit (41_resolve R130, 42_access R151). -/
theorem resolve_mapped_fits {rt : List Region} {a : Addr} {w : Width} {dir : Dir} {i : Nat} {r : Region} {o : Nat}
    (h : resolve rt a w dir = .mapped i r o) : o + w.bytes ≤ r.size.toNat := by
  obtain ⟨_, hc, rfl⟩ := resolve_mapped h
  rw [contains_iff, Region.limit] at hc
  omega

/-- What `overlapFrom` answers when it answers an index: the lowest that intersects. -/
theorem overlapFrom_some {rt : List Region} {e : Region} : ∀ {k i : Nat}, overlapFrom k e rt = some i →
    ∃ j f, i = k + j ∧ rt[j]? = some f ∧ intersects e f = true := by
  induction rt with
  | nil => intro k i h; simp [overlapFrom] at h
  | cons f rt ih =>
    intro k i h
    rw [overlapFrom] at h
    split at h
    · rename_i hf
      cases h
      exact ⟨0, f, rfl, rfl, hf⟩
    · obtain ⟨j, g, rfl, h2, h3⟩ := ih h
      exact ⟨j + 1, g, by omega, by simpa using h2, h3⟩

theorem overlapFrom_none {rt : List Region} {e : Region} : ∀ {k : Nat}, overlapFrom k e rt = none →
    ∀ f ∈ rt, intersects e f = false := by
  induction rt with
  | nil => intro k _ f hf; simp at hf
  | cons g rt ih =>
    intro k h f hf
    rw [overlapFrom] at h
    split at h
    · simp at h
    · rename_i hg
      rcases List.mem_cons.mp hf with rfl | hf
      · simpa using hg
      · exact ih h f hf

/-- What `as_map` does (40_composition R111). -/
theorem asMap_ok {rt rt' : List Region} {e : Region} (h : asMap rt e = .ok rt') :
    rt' = rt ++ [e] ∧ ∀ f ∈ rt, intersects e f = false := by
  unfold asMap at h
  split at h
  · cases h
  · rename_i hn
    cases h
    exact ⟨rfl, overlapFrom_none hn⟩

theorem asMap_error {rt : List Region} {e : Region} {j : Nat} (h : asMap rt e = .error j) :
    ∃ f, rt[j]? = some f ∧ intersects e f = true := by
  unfold asMap at h
  split at h
  · rename_i hs
    cases h
    obtain ⟨j', f, hj, h2, h3⟩ := overlapFrom_some hs
    rw [Nat.zero_add] at hj
    subst hj
    exact ⟨f, h2, h3⟩
  · cases h

/-- What `seedTarget` answers: an entry of kind ROM at LOAD_ADDR (40_composition R115). -/
theorem seedTargetFrom_some {rt : List Region} : ∀ {k i : Nat} {r : Region}, seedTargetFrom k rt = some (i, r) →
    ∃ j, i = k + j ∧ rt[j]? = some r ∧ r.kind = .rom ∧ r.base = loadAddr := by
  induction rt with
  | nil => intro k i r h; simp [seedTargetFrom] at h
  | cons f rt ih =>
    intro k i r h
    rw [seedTargetFrom] at h
    split at h
    · rename_i hf
      cases h
      exact ⟨0, rfl, rfl, hf⟩
    · obtain ⟨j, rfl, h2, h3⟩ := ih h
      exact ⟨j + 1, by omega, by simpa using h2, h3⟩

theorem seedTarget_some {rt : List Region} {i : Nat} {r : Region} (h : seedTarget rt = some (i, r)) :
    rt[i]? = some r ∧ r.kind = .rom ∧ r.base = loadAddr := by
  obtain ⟨j, hj, h2⟩ := seedTargetFrom_some h
  rw [Nat.zero_add] at hj
  subst hj
  exact h2

/-- What a defensive invariant violation can do (42_access R151, R152). -/
theorem invariantViolation_cases (code : ErrorCode) (a : Addr) (w : Width) (dir : Dir) (i : Nat) (s : State) :
    invariantViolation code a w dir i s = runtimeAbort (accessCause code a w dir (some i)) s ∨
      invariantViolation code a w dir i s = s.respond {} := by
  unfold invariantViolation
  split
  · exact .inl rfl
  · exact .inr rfl

/-- What an unmapped access can do (42_access R147). -/
theorem unmappedAccess_cases (dir : Dir) (w : Width) (a : Addr) (s : State) :
    unmappedAccess dir w a s = runtimeAbort (accessCause .unmappedAccess a w dir none) s ∨
      ∃ v, unmappedAccess dir w a s = s.respond { rdata := v } := by
  unfold unmappedAccess
  split
  · exact .inl rfl
  · exact .inr ⟨_, rfl⟩
  · exact .inr ⟨0, rfl⟩

/-- What a read of a storage Region does when the access fits, as every resolved one does (42_access R149, R151). -/
theorem regionRead_fits {i o : Nat} {r : Region} {w : Width} (a : Addr) (s : State)
    (h : o + w.bytes ≤ r.size.toNat) :
    regionRead i r o w a s = s.respond { rdata := assemble s.cpuBe (s.bytesAt i r.kind o w.bytes) } := by
  rw [regionRead, if_neg (by omega)]

/-- What a write of a storage Region does when the access fits (42_access R150, R151, R152). -/
theorem regionWrite_fits {i o : Nat} {r : Region} {w : Width} (v : Data) (a : Addr) (s : State)
    (h : o + w.bytes ≤ r.size.toNat) :
    regionWrite i r o w v a s =
      if r.kind = .rom then invariantViolation .readOnlyViolation a w .write i s
      else (s.setStore i (Memory.pokeAll r.kind (s.store i) o (split s.cpuBe v w))).respond {} := by
  rw [regionWrite, if_neg (by omega)]

/-- What a device call can do to the state: keep a new device state, or append one record to DIAG, or nothing. -/
theorem keepDev_cases (h : Handler) (id : HandlerId) (d : DevState) (s : State) :
    keepDev h id d s = s ∨ (h.stateless = false ∧ keepDev h id d s = s.setDev id d) := by
  unfold keepDev
  split
  · exact .inl rfl
  · rename_i hs
    exact .inr ⟨by simpa using hs, rfl⟩

theorem devRead_state_cases (h : Handler) (id : HandlerId) (name : String) (off : BitVec 32) (w : Width) (s : State) :
    (devRead h id name off w s).1 = s ∨ (∃ d, (devRead h id name off w s).1 = s.setDev id d) ∨
      (devRead h id name off w s).1 = s.logDiag { device := name, offset := off, dir := .read } := by
  unfold devRead
  split
  · rcases keepDev_cases h id (h.read (s.devState id) off w).1 s with hk | ⟨_, hk⟩
    · exact .inl hk
    · exact .inr (.inl ⟨_, hk⟩)
  · exact .inr (.inr rfl)

theorem devWrite_cases (h : Handler) (id : HandlerId) (name : String) (off : BitVec 32) (w : Width) (hv : Data)
    (s : State) :
    devWrite h id name off w hv s = s ∨ (∃ d, devWrite h id name off w hv s = s.setDev id d) ∨
      devWrite h id name off w hv s = s.logDiag { device := name, offset := off, dir := .write } := by
  unfold devWrite
  split
  · rcases keepDev_cases h id (h.write (s.devState id) off w hv) s with hk | ⟨_, hk⟩
    · exact .inl hk
    · exact .inr (.inl ⟨_, hk⟩)
  · exact .inr (.inr rfl)

/-- Everything the access pipeline can do when it answers a next state (42_access R145). -/
theorem accessWith_next {handlers : HandlerId → Option Handler} {dir : Dir} {w : Width} {a : Addr} {v : Data}
    {s t : State} (h : accessWith handlers dir w a v s = .next t) :
    s.phase = .run ∧
      ((resolve s.rt a w dir = .unmapped ∧ t = unmappedAccess dir w a s) ∨
        (∃ i r o, resolve s.rt a w dir = .mapped i r o ∧ (r.kind = .rom ∨ r.kind = .ram) ∧
          t = storageAccess dir i r o w v a s) ∨
        ∃ i r o be id hd, resolve s.rt a w dir = .mapped i r o ∧ r.kind = .mmio be id ∧ handlers id = some hd ∧
          ((dir = .read ∧ t = mmioRead hd id be r.name o w s) ∨
            (dir = .write ∧ t = mmioWrite hd id be r.name o w v s))) := by
  unfold accessWith at h
  split at h
  · rename_i hp
    refine ⟨hp, ?_⟩
    split at h
    · rename_i hr
      cases h
      exact .inl ⟨hr, rfl⟩
    · rename_i i r o hr
      split at h
      · rename_i be id hk
        unfold mmioAccess at h
        split at h
        · cases h
        · rename_i _ hd heq
          cases h
          exact .inr (.inr ⟨i, r, o, be, id, hd, hr, hk, heq, .inl ⟨rfl, rfl⟩⟩)
        · rename_i _ hd heq
          cases h
          exact .inr (.inr ⟨i, r, o, be, id, hd, hr, hk, heq, .inr ⟨rfl, rfl⟩⟩)
      · rename_i hk
        cases h
        exact .inr (.inl ⟨i, r, o, hr, .inl hk, rfl⟩)
      · rename_i hk
        cases h
        exact .inr (.inl ⟨i, r, o, hr, .inr hk, rfl⟩)
  · cases h

/-- When MAP's handler id is no reserved encoding (30_encoding R90). -/
theorem unboundRefusal_none {handlers : HandlerId → Option Handler} {kind : RegionKind} :
    unboundRefusal handlers kind = none ↔ ∀ be id, kind = .mmio be id → (handlers id).isSome = true := by
  cases kind with
  | rom => simp [unboundRefusal]
  | ram => simp [unboundRefusal]
  | mmio be id => cases hh : handlers id <;> simp [unboundRefusal, hh]

/-- When an entry of the table names a handler id (40_composition R113). -/
theorem handlerInUse_iff {rt : List Region} {id : HandlerId} :
    handlerInUse rt id = true ↔ ∃ f ∈ rt, ∃ be, f.kind = .mmio be id := by
  simp only [handlerInUse, List.any_eq_true]
  refine exists_congr fun f => and_congr_right fun _ => ?_
  cases f.kind <;> simp

/-- When an entry may join the table (40_composition R113). -/
theorem sharingRefusal_none {handlers : HandlerId → Option Handler} {rt : List Region} {kind : RegionKind} :
    sharingRefusal handlers rt kind = none ↔ ∀ be id h, kind = .mmio be id → handlers id = some h →
      h.stateless = true ∨ ∀ f ∈ rt, ∀ be', f.kind ≠ .mmio be' id := by
  cases kind with
  | rom => simp [sharingRefusal]
  | ram => simp [sharingRefusal]
  | mmio be id =>
    have hu := handlerInUse_iff (rt := rt) (id := id)
    cases hh : handlers id with
    | none =>
      refine ⟨fun _ be' id' h' hk hh' => ?_, fun _ => by simp [sharingRefusal, hh]⟩
      cases hk
      rw [hh] at hh'
      cases hh'
    | some h =>
      have hr : sharingRefusal handlers rt (.mmio be id) = none ↔ (h.stateless = false → handlerInUse rt id = false) := by
        simp [sharingRefusal, hh]
      rw [hr]
      constructor
      · intro hn be' id' h' hk hh'
        cases hk
        rw [hh] at hh'
        cases hh'
        cases hs : h.stateless
        · refine .inr fun f hf be' hf' => ?_
          have := hu.mpr ⟨f, hf, be', hf'⟩
          rw [hn hs] at this
          cases this
        · exact .inl rfl
      · intro hn hs
        rcases hn be id h rfl hh with h1 | h1
        · rw [hs] at h1
          cases h1
        · rw [← Bool.not_eq_true, hu]
          rintro ⟨f, hf, be', hf'⟩
          exact h1 f hf be' hf'

/-- Everything MAP can do when it answers a next state (40_composition R112). -/
theorem mapWith_next {handlers : HandlerId → Option Handler} {e : Region} {s t : State}
    (h : mapWith handlers e s = .next t) :
    s.phase = .build ∧ unboundRefusal handlers e.kind = none ∧
      ((∃ j, asMap s.rt e = .error j ∧
          t = startupFail { code := .overlap, addr := e.base, size := e.size, region := some j } s) ∨
        (asMap s.rt e = .ok (s.rt ++ [e]) ∧ sharingRefusal handlers s.rt e.kind = none ∧
          t = (appendRegion (s.rt ++ [e]) s).respond {})) := by
  unfold mapWith at h
  split at h
  · rename_i hp
    split at h
    · cases h
    · rename_i hr
      refine ⟨hp, hr, ?_⟩
      split at h
      · rename_i j hj
        cases h
        exact .inl ⟨j, hj, rfl⟩
      · rename_i rt' hj
        split at h
        · cases h
        · rename_i hs
          cases h
          obtain ⟨rfl, _⟩ := asMap_ok hj
          exact .inr ⟨hj, hs, rfl⟩
  · cases h

/-- Everything SEED can do when it answers a next state (40_composition R115). -/
theorem execSeed_next {image : Option (List Byte)} {s t : State} (h : execSeed image s = .next t) :
    s.phase = .build ∧ ∃ i r, seedTarget s.rt = some (i, r) ∧
      ((image = none ∧ t = startupFail { code := .imageNotFound } s) ∨
        ∃ bytes, image = some bytes ∧ t = seedImage i r bytes s) := by
  unfold execSeed at h
  split at h
  · rename_i hp
    split at h
    · cases h
    · rename_i i r hr
      split at h <;> cases h
      · exact ⟨hp, i, r, hr, .inl ⟨rfl, rfl⟩⟩
      · exact ⟨hp, i, r, hr, .inr ⟨_, rfl, rfl⟩⟩
  · cases h

/-- Everything one step can do (60_exceptions R223, 70_reset_and_hazards R230, R235). -/
theorem step_next {s t : State} (h : step s = .next t) :
    (s.input = [] ∧ t = s) ∨
      (∃ straps rest, s.input = .rst straps :: rest ∧ t = State.afterReset straps (s.epoch + 1) rest) ∨
        ∃ f rest i, s.input = .command f :: rest ∧ decode f = .ok i ∧ exec i { s with input := rest } = .next t := by
  unfold step nextStimulus at h
  split at h
  · rename_i hn
    split at hn
    · rename_i hi
      cases h
      exact .inl ⟨hi, rfl⟩
    · cases hn
  · rename_i straps s' hn
    split at hn
    · cases hn
    · rename_i x rest hi
      cases hn
      cases h
      exact .inr (.inl ⟨straps, rest, hi, rfl⟩)
  · rename_i f s' hn
    split at hn
    · cases hn
    · rename_i x rest hi
      cases hn
      split at h
      · rename_i i hd
        exact .inr (.inr ⟨f, rest, i, hi, hd, h⟩)
      · cases h

end Sys2Proof.Machine
end

