-- ==== Sys2Proof/Laws/PerInstr.lean ====
section
/-! SUPPORT. A statement about every command as syntax, made per constructor: its encoded command word selects its row
of the opcode map (30_encoding R89: `(c & mask) = match`). -/

namespace Sys2Proof.Laws

/-- `match` of a command's row (30_encoding R89). -/
def rowMatch : Instr → BitVec 5
  | .read8 _ => 0x00#5
  | .read16 _ => 0x01#5
  | .read32 _ => 0x02#5
  | .read64 _ => 0x03#5
  | .write8 _ _ => 0x04#5
  | .write16 _ _ => 0x05#5
  | .write32 _ _ => 0x06#5
  | .write64 _ _ => 0x07#5
  | .resolve _ _ _ => 0x08#5
  | .map _ _ _ _ => 0x10#5
  | .cpuinit _ _ _ _ => 0x11#5
  | .seed _ => 0x12#5
  | .start => 0x13#5

/-- `mask` of a command's row (30_encoding R89). -/
def rowMask : Instr → BitVec 5
  | .resolve _ _ _ => 0x18#5
  | _ => 0x1F#5

/-- The encoded command word selects the command's row. -/
def CommandWord.Statement (i : Instr) : Prop := (encode i).cmd &&& rowMask i = rowMatch i

theorem CommandWord.read8 (a : Addr) : CommandWord.Statement (.read8 a) := by
  simp [CommandWord.Statement, encode, rowMask, rowMatch]

theorem CommandWord.read16 (a : Addr) : CommandWord.Statement (.read16 a) := by
  simp [CommandWord.Statement, encode, rowMask, rowMatch]

theorem CommandWord.read32 (a : Addr) : CommandWord.Statement (.read32 a) := by
  simp [CommandWord.Statement, encode, rowMask, rowMatch]

theorem CommandWord.read64 (a : Addr) : CommandWord.Statement (.read64 a) := by
  simp [CommandWord.Statement, encode, rowMask, rowMatch]

theorem CommandWord.write8 (a : Addr) (v : BitVec 8) : CommandWord.Statement (.write8 a v) := by
  simp [CommandWord.Statement, encode, rowMask, rowMatch]

theorem CommandWord.write16 (a : Addr) (v : BitVec 16) : CommandWord.Statement (.write16 a v) := by
  simp [CommandWord.Statement, encode, rowMask, rowMatch]

theorem CommandWord.write32 (a : Addr) (v : BitVec 32) : CommandWord.Statement (.write32 a v) := by
  simp [CommandWord.Statement, encode, rowMask, rowMatch]

theorem CommandWord.write64 (a : Addr) (v : BitVec 64) : CommandWord.Statement (.write64 a v) := by
  simp [CommandWord.Statement, encode, rowMask, rowMatch]

theorem CommandWord.resolve (dir : Dir) (width : Width) (a : Addr) :
    CommandWord.Statement (.resolve dir width a) := by
  cases dir <;> cases width <;> simp [CommandWord.Statement, encode, rowMask, rowMatch, Dir.bit, Width.code]

theorem CommandWord.map (name : String) (base : Addr) (size : BitVec 64) (kind : RegionKind) :
    CommandWord.Statement (.map name base size kind) := by
  simp [CommandWord.Statement, encode, rowMask, rowMatch]

theorem CommandWord.cpuinit (variant : BitVec 8) (be : ByteOrder) (vec cpuOk : Bool) :
    CommandWord.Statement (.cpuinit variant be vec cpuOk) := by
  simp [CommandWord.Statement, encode, rowMask, rowMatch]

theorem CommandWord.seed (image : Option (List Byte)) : CommandWord.Statement (.seed image) := by
  cases image <;> simp [CommandWord.Statement, encode, rowMask, rowMatch]

theorem CommandWord.start : CommandWord.Statement .start := by
  simp [CommandWord.Statement, encode, rowMask, rowMatch]

end Sys2Proof.Laws
end

