-- ==== Sys2Proof/Machine/Asm.lean ====
section
/-! DEFINITION. The textual form of a command script (30_encoding R93) and its pseudo-instructions (R94): one line of
text to the commands it stands for. No rule of the machine depends on it (92_eei_decisions D28). -/

namespace Sys2Proof.Machine

/-- Why a line of a script is no command (30_encoding R93). -/
inductive AsmError where
  /-- The line has none of the forms of 30_encoding R93 and R94. -/
  | syntaxError
  /-- A number wider than its operand: "an assembler error, not truncated". -/
  | tooWide
  deriving DecidableEq, Repr

/-- The tokens of a line. -/
inductive Token where
  | word (chars : List Char)
  | comma
  | openBracket
  | closeBracket
  deriving DecidableEq, Repr

/-- A word read so far, as a token if it is not empty. -/
def flushWord (acc : List Char) : List Token := if acc = [] then [] else [.word acc.reverse]

/-- The tokens of a line: `;` starts a comment, and a result written after `->` is an expectation, not part of the
command (30_encoding R93). -/
def tokenize (acc : List Char) : List Char → List Token
  | [] => flushWord acc
  | ';' :: _ => flushWord acc
  | '-' :: '>' :: _ => flushWord acc
  | ',' :: rest => flushWord acc ++ .comma :: tokenize [] rest
  | '[' :: rest => flushWord acc ++ .openBracket :: tokenize [] rest
  | ']' :: rest => flushWord acc ++ .closeBracket :: tokenize [] rest
  | ' ' :: rest => flushWord acc ++ tokenize [] rest
  | '\t' :: rest => flushWord acc ++ tokenize [] rest
  | c :: rest => tokenize (c :: acc) rest

/-- The value of a digit in a base of at most 16. -/
def digitValue (base : Nat) (c : Char) : Option Nat :=
  let n := c.toNat
  let v := if 48 ≤ n ∧ n ≤ 57 then some (n - 48)
    else if 65 ≤ n ∧ n ≤ 70 then some (n - 55)
    else if 97 ≤ n ∧ n ≤ 102 then some (n - 87)
    else none
  match v with
  | some d => if d < base then some d else none
  | none => none

/-- The value of the digits of a number, given the value of those before them. -/
def digitsValue (base acc : Nat) : List Char → Option Nat
  | [] => some acc
  | c :: rest =>
    match digitValue base c with
    | some d => digitsValue base (acc * base + d) rest
    | none => none

/-- "Numbers are hexadecimal with `0x` or decimal" (30_encoding R93). -/
def parseNat : List Char → Option Nat
  | [] => none
  | ['0', 'x'] => none
  | '0' :: 'x' :: rest => digitsValue 16 0 rest
  | cs => digitsValue 10 0 cs

/-- A number that must fit in some bits. -/
def parseBits (bits : Nat) (cs : List Char) : Except AsmError (BitVec bits) :=
  match parseNat cs with
  | none => .error .syntaxError
  | some n => if n < 2 ^ bits then .ok (BitVec.ofNat bits n) else .error .tooWide

/-- `BE` or `LE`. -/
def parseOrder (cs : List Char) : Except AsmError ByteOrder :=
  if cs = ['B', 'E'] then .ok .big else if cs = ['L', 'E'] then .ok .little else .error .syntaxError

/-- The bytes between the brackets of an image, lowest offset first. -/
def parseBytes : List Token → Except AsmError (List Byte)
  | [.word cs, .closeBracket] => return [← parseBits 8 cs]
  | .word cs :: .comma :: rest => return (← parseBits 8 cs) :: (← parseBytes rest)
  | _ => .error .syntaxError

/-- An image: its bytes in brackets, or NOTFOUND. -/
def parseImage : List Token → Except AsmError (Option (List Byte))
  | [.openBracket, .closeBracket] => .ok (some [])
  | .openBracket :: rest => return some (← parseBytes rest)
  | [.word cs] => if cs = "NOTFOUND".toList then .ok none else .error .syntaxError
  | _ => .error .syntaxError

/-- The width a width number, in bytes, names: 1, 2, 4 or 8. -/
def parseWidth (cs : List Char) : Except AsmError Width :=
  match cs with
  | ['1'] => .ok .w8
  | ['2'] => .ok .w16
  | ['4'] => .ok .w32
  | ['8'] => .ok .w64
  | _ => .error .syntaxError

/-- `R` or `W`. -/
def parseDir (cs : List Char) : Except AsmError Dir :=
  if cs = ['R'] then .ok .read else if cs = ['W'] then .ok .write else .error .syntaxError

/-- The width a mnemonic's suffix names, in bits: 8, 16, 32 or 64. -/
def suffixWidth (pre cs : List Char) : Option Width :=
  if cs = pre ++ ['8'] then some .w8
  else if cs = pre ++ ['1', '6'] then some .w16
  else if cs = pre ++ ['3', '2'] then some .w32
  else if cs = pre ++ ['6', '4'] then some .w64
  else none

/-- `MAP` with its operands; the handler id defaults to 0, the stub (30_encoding R93). -/
def parseMap : List Token → Except AsmError (List Instr)
  | .word name :: .comma :: .word base :: .comma :: .word size :: .comma :: .word kind :: rest => do
    let b ← parseBits 32 base
    let n ← parseBits 64 size
    if kind = "ROM".toList ∧ rest = [] then return [.map (String.ofList name) b n .rom]
    else if kind = "RAM".toList ∧ rest = [] then return [.map (String.ofList name) b n .ram]
    else if kind = "MMIO".toList then
      match rest with
      | [.comma, .word be] => return [.map (String.ofList name) b n (.mmio (← parseOrder be) 0#8)]
      | [.comma, .word be, .comma, .word h] =>
        return [.map (String.ofList name) b n (.mmio (← parseOrder be) (← parseBits 8 h))]
      | _ => .error .syntaxError
    else .error .syntaxError
  | _ => .error .syntaxError

/-- `CPUINIT <variant>, BE|LE, <vec>`; `cpu_ok` is the CPU component's answer, no operand of the text. -/
def parseCpuinit (cpuOk : Bool) : List Token → Except AsmError (List Instr)
  | [.word variant, .comma, .word be, .comma, .word vec] =>
    return [.cpuinit (← parseBits 8 variant) (← parseOrder be) (decide ((← parseBits 1 vec) = 1#1)) cpuOk]
  | _ => .error .syntaxError

/-- `RESOLVE R|W, 1|2|4|8, <addr>`. -/
def parseResolve : List Token → Except AsmError (List Instr)
  | [.word dir, .comma, .word width, .comma, .word addr] =>
    return [.resolve (← parseDir dir) (← parseWidth width) (← parseBits 32 addr)]
  | _ => .error .syntaxError

/-- `WRITEn <addr>, <value>`: a value wider than the access is an error. -/
def parseWrite (w : Width) : List Token → Except AsmError (List Instr)
  | [.word addr, .comma, .word value] =>
    match w with
    | .w8 => return [.write8 (← parseBits 32 addr) (← parseBits 8 value)]
    | .w16 => return [.write16 (← parseBits 32 addr) (← parseBits 16 value)]
    | .w32 => return [.write32 (← parseBits 32 addr) (← parseBits 32 value)]
    | .w64 => return [.write64 (← parseBits 32 addr) (← parseBits 64 value)]
  | _ => .error .syntaxError

/-- `READn <addr>` and `FETCHn <addr>`. -/
def parseRead (w : Width) : List Token → Except AsmError (List Instr)
  | [.word addr] => return [readCommand w (← parseBits 32 addr)]
  | _ => .error .syntaxError

/-- The commands of a line's tokens (30_encoding R93, R94). -/
def parseTokens (cpuOk : Bool) : List Token → Except AsmError (List Instr)
  | [] => .ok []
  | .word m :: rest =>
    if m = "MAP".toList then parseMap rest
    else if m = "CPUINIT".toList then parseCpuinit cpuOk rest
    else if m = "SEED".toList then do return [.seed (← parseImage rest)]
    else if m = "START".toList then (if rest = [] then .ok [.start] else .error .syntaxError)
    else if m = "RESOLVE".toList then parseResolve rest
    else if m = "COMPOSE_SOC".toList then do return composeSoc (← parseImage rest) cpuOk
    else
      match suffixWidth "READ".toList m, suffixWidth "FETCH".toList m, suffixWidth "WRITE".toList m with
      | some w, _, _ => parseRead w rest
      | none, some w, _ => parseRead w rest
      | none, none, some w => parseWrite w rest
      | none, none, none => .error .syntaxError
  | _ => .error .syntaxError

/-- The commands of one line of a script; `cpuOk` is what the CPU component would answer (30_encoding R93, R94). -/
def assembleLine (cpuOk : Bool) (line : String) : Except AsmError (List Instr) :=
  parseTokens cpuOk (tokenize [] line.toList)

end Sys2Proof.Machine
end

