-- ==== Sys2Proof/Tests/Slice0.lean ====
section
/-! SUPPORT. Tests of single definitions and single steps. Expected values are the spec's own: the encodings of
30_encoding and the vectors of 95_test_vectors, named in each comment. -/

namespace Sys2Proof.Tests

open Sys2Proof.Machine

/-! ### WellFormed -/

/-- An image longer than `img_len[63:0]` can say (30_encoding R83). -/
theorem test_wellFormed_refuses_long_image (b : Byte) (n : Nat) (h : 2 ^ 64 ≤ n) :
    (Instr.seed (some (List.replicate n b))).wellFormed = false := by
  rw [Instr.wellFormed, List.length_replicate]
  exact decide_eq_false (Nat.not_lt.mpr h)

theorem test_wellFormed_accepts_short_image : (Instr.seed (some [0xEA, 0x00, 0x00])).wellFormed = true := by decide

/-! ### Decode: a command word of every row written out from 30_encoding R89, and the reserved ones of R90 -/

theorem test_decode_read8 : decode { cmd := 0b00000#5, addr := 0x10000010#32 } = .ok (.read8 0x10000010#32) := by decide

theorem test_decode_read16 : decode { cmd := 0b00001#5, addr := 0x10000011#32 } = .ok (.read16 0x10000011#32) := by
  decide

theorem test_decode_read32 : decode { cmd := 0b00010#5, addr := 0xFFFF0000#32 } = .ok (.read32 0xFFFF0000#32) := by
  decide

theorem test_decode_read64 : decode { cmd := 0b00011#5, addr := 0xFFFFFFFF#32 } = .ok (.read64 0xFFFFFFFF#32) := by
  decide

/-- V-ST-16: `wdata[63:8]` is ignored. -/
theorem test_decode_write8 :
    decode { cmd := 0b00100#5, addr := 0x10000000#32, wdata := 0x1FF#64 } = .ok (.write8 0x10000000#32 0xFF#8) := by
  decide

theorem test_decode_write16 :
    decode { cmd := 0b00101#5, addr := 0x10000001#32, wdata := 0xFFFFBEEF#64 } =
      .ok (.write16 0x10000001#32 0xBEEF#16) := by
  decide

theorem test_decode_write32 :
    decode { cmd := 0b00110#5, addr := 0x10000000#32, wdata := 0x9911223344#64 } =
      .ok (.write32 0x10000000#32 0x11223344#32) := by
  decide

theorem test_decode_write64 :
    decode { cmd := 0b00111#5, addr := 0x10000005#32, wdata := 0x0102030405060708#64 } =
      .ok (.write64 0x10000005#32 0x0102030405060708#64) := by
  decide

/-- V-RS-22 and V-RS-4: 0x0A is a 4-byte read probe, 0x0E a 4-byte write probe. -/
theorem test_decode_resolve :
    decode { cmd := 0b01010#5, addr := 0x0D80021C#32 } = .ok (.resolve .read .w32 0x0D80021C#32) ∧
      decode { cmd := 0b01110#5, addr := 0x017FFFFD#32 } = .ok (.resolve .write .w32 0x017FFFFD#32) ∧
      decode { cmd := 0b01101#5 } = .ok (.resolve .write .w16 0#32) := by
  decide

/-- `MAP STORAGE` is `10 / 0D010000 / 200`, `d_kind = 2`, `d_be = 1`, `d_handler = 0` (95_test_vectors, part 3). -/
theorem test_decode_map_mmio :
    decode { cmd := 0b10000#5, addr := 0x0D010000#32, wdata := 0x200#64, dKind := 0b10#2, dBe := true,
             dHandler := 0#8, dName := "STORAGE" } =
      .ok (.map "STORAGE" 0x0D010000#32 0x200#64 (.mmio .big 0#8)) := by
  decide

/-- `d_be` and `d_handler` of a storage Region are ignored (30_encoding R90). -/
theorem test_decode_map_storage :
    decode { cmd := 0b10000#5, wdata := 0x01800000#64, dKind := 0b01#2, dBe := true, dHandler := 7#8, dName := "MEM1" } =
      .ok (.map "MEM1" 0#32 0x01800000#64 .ram) ∧
      decode { cmd := 0b10000#5, addr := 0xFFFF0000#32, wdata := 0x2000#64, dName := "BOOT_ROM" } =
        .ok (.map "BOOT_ROM" 0xFFFF0000#32 0x2000#64 .rom) := by
  decide

/-- `wdata` = 100 + CPU_VARIANT + 200 * CPU_VEC (95_test_vectors, part 3); `wdata[63:10]` is ignored. -/
theorem test_decode_cpuinit :
    decode { cmd := 0b10001#5, wdata := 0xFF12A#64, cpuOk := true } = .ok (.cpuinit 0x2A#8 .big false true) ∧
      decode { cmd := 0b10001#5, wdata := 0x201#64 } = .ok (.cpuinit 0x01#8 .little true false) := by
  decide

/-- V-SD-6: NOTFOUND with `img_len` = 0x2001 also presented. -/
theorem test_decode_seed :
    decode { cmd := 0b10010#5, imgFound := true, imgLen := 3#64, img := [0xEA, 0x00, 0x00] } =
      .ok (.seed (some [0xEA, 0x00, 0x00])) ∧
      decode { cmd := 0b10010#5, imgLen := 0x2001#64 } = .ok (.seed none) ∧
      decode { cmd := 0b10010#5, imgFound := true, imgLen := 3#64, img := [0xEA] } = .error .imageShort := by
  decide

theorem test_decode_start :
    decode { cmd := 0b10011#5, addr := 0x12345678#32, wdata := 0xFF#64 } = .ok .start := by
  decide

/-- V-PH-14, V-PH-15, V-MAP-14. -/
theorem test_decode_reserved :
    decode { cmd := 0x14#5 } = .error (.reservedCommand 0x14#5) ∧
      decode { cmd := 0x1F#5 } = .error (.reservedCommand 0x1F#5) ∧
      decode { cmd := 0x10#5, dKind := 0b11#2 } = .error .reservedKind := by
  decide

theorem test_decodeTableWord :
    decodeTableWord 8 0x0F = some (.resolve .write .w64 0#32) ∧ decodeTableWord 8 0x13 = some .start ∧
      decodeTableWord 8 0x14 = none := by
  decide

/-! ### Values and bytes -/

/-- The examples below the table of 95_test_vectors 2.7. -/
theorem test_split_assemble :
    split .big 0x12345678#64 .w32 = [0x12, 0x34, 0x56, 0x78] ∧
      split .little 0x12345678#64 .w32 = [0x78, 0x56, 0x34, 0x12] ∧
      assemble .big [0xEA, 0x00, 0x00, 0x00] = 0xEA000000#64 ∧
      assemble .little [0xEA, 0x00, 0x00, 0x00] = 0x000000EA#64 ∧ bswap 0x12345678#64 .w32 = 0x78563412#64 := by
  decide

/-- V-AD-1, V-AD-3, V-AD-5, V-AD-6, V-AD-7, V-AD-9, V-AD-10. -/
theorem test_adapt :
    adapt .w32 0x12345678#64 .big .big = 0x12345678#64 ∧ adapt .w32 0x12345678#64 .little .big = 0x78563412#64 ∧
      adapt .w16 0x1234#64 .little .big = 0x3412#64 ∧
      adapt .w64 0x0102030405060708#64 .little .big = 0x0807060504030201#64 ∧
      adapt .w8 0xAB#64 .little .big = 0xAB#64 ∧ adapt .w32 0x000000FF#64 .big .little = 0xFF000000#64 ∧
      adapt .w16 0xFF00#64 .big .little = 0x00FF#64 := by
  decide

/-! ### Single steps, on a small machine of four Regions of this system-on-chip -/

/-- MEM2, STORAGE, SOC_CTRL and BOOT_ROM of 20_memory R63. -/
def table : List Region :=
  [{ name := "MEM2", base := 0x10000000#32, size := 0x04000000#64, kind := .ram },
   { name := "STORAGE", base := 0x0D010000#32, size := 0x200#64, kind := .mmio .big 0#8 },
   { name := "SOC_CTRL", base := 0x0D800000#32, size := 0x220#64, kind := .mmio .big 0#8 },
   { name := "BOOT_ROM", base := 0xFFFF0000#32, size := 0x2000#64, kind := .rom }]

/-- The machine in RUN with the image EA 00 00, MEM2 holding 11 22 33 44, given straps and a CPU byte order. -/
def running (straps : BitVec 66) (be : ByteOrder) : State :=
  { State.afterReset straps 0 [] with
    phase := .run
    cpuReady := true
    cpuBe := be
    rt := table
    stores := [[(0, 0x11), (1, 0x22), (2, 0x33), (3, 0x44)], [], [], [(0, 0xEA)]] }

/-- The machine in BUILD with MEM1 and BOOT_ROM mapped (95_test_vectors 2.1 and 2.8). -/
def building : State :=
  { State.afterReset 0 0 [] with
    rt := [{ name := "MEM1", base := 0#32, size := 0x01800000#64, kind := .ram },
      { name := "BOOT_ROM", base := 0xFFFF0000#32, size := 0x2000#64, kind := .rom }]
    stores := [[], []] }

/-- Straps (DEGRADE, DEGRADE, 0xDEADBEEFCAFEF00D). -/
def lenient : BitVec 66 := 0xDEADBEEFCAFEF00D#64 ++ 0b00#2

/-- Straps (ABORT, ABORT, 0). -/
def strict : BitVec 66 := 0#64 ++ 0b11#2

/-- What the command responded, if it answered a next state. -/
def response : Host.Outcome State Fault Refusal → Option Response
  | .next s => s.out.response
  | _ => none

/-- A view of the next state, if there is one. -/
def after {α : Type} (view : State → α) : Host.Outcome State Fault Refusal → Option α
  | .next s => some (view s)
  | _ => none

/-- Why a command was refused. -/
def refusal : Host.Outcome State Fault Refusal → Option Refusal
  | .refused r => some r
  | _ => none

/-- V-ST-2, V-ST-3. -/
theorem test_read8 :
    response (exec (.read8 0x10000000#32) (running 0 .big)) = some { rdata := 0x11#64 } ∧
      response (exec (.read8 0x10000003#32) (running 0 .big)) = some { rdata := 0x44#64 } := by
  decide

/-- V-ST-4, misaligned; and with a little-endian CPU (95_test_vectors 2.3: bytes 22 33 at the odd address). -/
theorem test_read16 :
    response (exec (.read16 0x10000001#32) (running 0 .big)) = some { rdata := 0x2233#64 } ∧
      response (exec (.read16 0x10000001#32) (running 0 .little)) = some { rdata := 0x3322#64 } := by
  decide

/-- S1: the ROM holds EA 00 00 and is zero after it. -/
theorem test_read32 :
    response (exec (.read32 0xFFFF0000#32) (running 0 .big)) = some { rdata := 0xEA000000#64 } ∧
      response (exec (.read32 0xFFFF0000#32) (running 0 .little)) = some { rdata := 0x000000EA#64 } := by
  decide

/-- V-ST-25, V-UN-4. -/
theorem test_read64 :
    response (exec (.read64 0xFFFF0000#32) (running 0 .big)) = some { rdata := 0xEA00000000000000#64 } ∧
      response (exec (.read64 0x08000000#32) (running lenient .big)) = some { rdata := 0xDEADBEEFCAFEF00D#64 } := by
  decide

/-- V-UN-1, V-UN-2, V-UN-5: the fill is cut to the width; an access past SOC_CTRL's end is unmapped and not logged. -/
theorem test_unmapped_read :
    response (exec (.read8 0x0D080000#32) (running lenient .big)) = some { rdata := 0x0D#64 } ∧
      response (exec (.read16 0x08000000#32) (running lenient .big)) = some { rdata := 0xF00D#64 } ∧
      after (fun s => (s.out.response, s.diag, s.phase)) (exec (.read32 0x0D80021E#32) (running lenient .big)) =
        some (some { rdata := 0xCAFEF00D#64 }, [], .run) := by
  decide

/-- V-UN-9. -/
theorem test_unmapped_abort :
    after (fun s => (s.phase, s.cause, s.out.response)) (exec (.read8 0x01800000#32) (running strict .big)) =
      some (.aborted, { code := .unmappedAccess, addr := 0x01800000#32, size := 1#64 },
        some { err := .unmappedAccess }) := by
  decide

/-- V-ST-8. -/
theorem test_write8 :
    after (fun s => s.stores[0]?) (exec (.write8 0x10000003#32 0x99#8) (running 0 .big)) =
      some (some [(0, 0x11), (1, 0x22), (2, 0x33), (3, 0x99)]) := by
  decide

/-- V-ST-6; and V-RO-2: under INV_POLICY = ABORT a write to ROM ends the machine. -/
theorem test_write16 :
    after (fun s => s.stores[0]?) (exec (.write16 0x10000001#32 0xBEEF#16) (running 0 .big)) =
      some (some [(0, 0x11), (1, 0xBE), (2, 0xEF), (3, 0x44)]) ∧
      after (fun s => (s.phase, s.cause, s.stores)) (exec (.write16 0xFFFF0010#32 0#16) (running strict .big)) =
        some (.aborted,
          { code := .readOnlyViolation, addr := 0xFFFF0010#32, size := 2#64, dir := .write, region := some 3 },
          (running strict .big).stores) := by
  decide

/-- V-RO-1; and 95_test_vectors 2.3 with CPU_BE = 0: `WRITE32 0x11223344` leaves 44 33 22 11. -/
theorem test_write32 :
    after (fun s => (s.phase, s.stores, s.out.response)) (exec (.write32 0xFFFF0000#32 0xFFFFFFFF#32) (running lenient .big)) =
      some (.run, (running lenient .big).stores, some {}) ∧
      after (fun s => s.stores[0]?) (exec (.write32 0x10000000#32 0x11223344#32) (running 0 .little)) =
        some (some [(0, 0x44), (1, 0x33), (2, 0x22), (3, 0x11)]) := by
  decide

/-- V-ST-10; and V-MM-5's shape: one device call of width 8, one record. -/
theorem test_write64 :
    after (fun s => (s.stores[0]?).map (List.drop 4)) (exec (.write64 0x10000005#32 0x0102030405060708#64) (running 0 .big)) =
      some (some [(5, 1), (6, 2), (7, 3), (8, 4), (9, 5), (10, 6), (11, 7), (12, 8)]) ∧
      after (fun s => (s.diag, s.out.devCalls)) (exec (.write64 0x0D0100C8#32 0x0102030405060708#64) (running 0 .big)) =
        some ([{ device := "STORAGE", offset := 0xC8#32, dir := .write }],
          [{ handler := 0#8, dir := .write, width := .w64, offset := 0xC8#32, wdata := 0x0102030405060708#64 }]) := by
  decide

/-- V-MM-1, and P4: a stub access is never a fault, even in strict mode. -/
theorem test_stub_read :
    after (fun s => (s.out.response, s.diag, s.phase)) (exec (.read32 0x0D800214#32) (running strict .big)) =
      some (some {}, [{ device := "SOC_CTRL", offset := 0x214#32, dir := .read }], .run) := by
  decide

/-- 95_test_vectors 2.7, end to end: a little-endian CPU's `WRITE32 0x12345678` delivers 0x78563412 to a big-endian
window. -/
theorem test_adapter_on_write :
    after (fun s => s.out.devCalls.map DevCall.wdata) (exec (.write32 0x0D010004#32 0x12345678#32) (running 0 .little)) =
      some [0x78563412#64] := by
  decide

/-- V-RS-22 and V-RS-23 (SOC_CTRL is Region 2 here). -/
theorem test_resolve :
    response (exec (.resolve .read .w32 0x0D80021C#32) (running strict .big)) =
        some { hit := some { ridx := 2, roff := 0x21C#32 } } ∧
      response (exec (.resolve .read .w32 0x0D80021E#32) (running strict .big)) = some { err := .unmappedAccess } := by
  decide

/-- V-MAP-1. -/
theorem test_map_overlap :
    after (fun s => (s.phase, s.cause, s.nreg)) (exec (.map "X" 0x017FFFFF#32 1#64 .ram) building) =
      some (.failed, { code := .overlap, addr := 0x017FFFFF#32, size := 1#64, region := some 0 }, 2) := by
  decide

/-- V-MAP-2, V-MAP-8, V-MAP-11. -/
theorem test_map_accepts :
    after (fun s => (s.phase, s.nreg)) (exec (.map "X" 0x01800000#32 1#64 .ram) building) = some (.build, 3) ∧
      after State.nreg (exec (.map "X" 0x500#32 0#64 .ram) building) = some 3 ∧
      after State.nreg (exec (.map "X" 0xFFFF2000#32 0x100000000#64 .ram) building) = some 3 := by
  decide

/-- V-PH-7, and V-PH-16. -/
theorem test_cpuinit :
    after (fun s => (s.cpuReady, s.cpuBe, s.out.cpuDrive)) (exec (.cpuinit 5#8 .big true true) building) =
      some (true, .big, some { variant := 5#8, be := .big, vec := true }) ∧
      after (fun s => (s.phase, s.cause, s.cpuReady)) (exec (.cpuinit 0#8 .big false false) building) =
        some (.failed, { code := .cpuConstruction }, false) := by
  decide

/-- V-SD-2; V-SD-5. -/
theorem test_seed :
    after (fun s => (s.phase, s.stores)) (exec (.seed (some [0xEA, 0x00, 0x5A])) building) =
      some (.loaded, [[], [(0, 0xEA), (2, 0x5A)]]) ∧
      after (fun s => (s.phase, s.cause)) (exec (.seed none) building) = some (.failed, { code := .imageNotFound }) := by
  decide

/-- V-SD-11: an image longer than the ROM. -/
theorem test_seed_too_large :
    after (fun s => (s.phase, s.cause))
        (exec (.seed (some [0x01]))
          { building with rt := [{ name := "R", base := 0xFFFF0000#32, size := 0#64, kind := .rom }], stores := [[]] }) =
      some (.failed, { code := .imageTooLarge, size := 1#64, region := some 0 }) := by
  decide

/-- V-PH-10, V-PH-4. -/
theorem test_start :
    after (fun s => (s.phase, s.out.cpuStart)) (exec .start { building with phase := .loaded, cpuReady := true }) =
        some (.run, true) ∧
      refusal (exec .start { building with phase := .loaded }) = some .cpuNotReady := by
  decide

/-- V-PH-1, V-PH-5, V-SD-8, V-RS-41. -/
theorem test_refusals :
    refusal (exec (.read8 0#32) building) = some (.notAccepted .build) ∧
      refusal (exec (.map "Y" 0x02000000#32 1#64 .ram) { building with phase := .loaded }) = some (.notAccepted .loaded) ∧
      refusal (exec (.seed (some [1])) { building with rt := [], stores := [] }) = some .noSeedTarget ∧
      refusal (exec (.resolve .read .w8 0#32) { building with phase := .aborted }) = some (.notAccepted .aborted) := by
  decide

/-- A step presents the frame to the decoder and runs it; a reserved word is refused (30_encoding R90); `rst` leaves
ABORTED (70_reset_and_hazards R230). -/
theorem test_step :
    after State.nreg (step (State.withFetchWord (State.afterReset 0 0 []) 8 0x10)) = some 1 ∧
      refusal (step (State.withFetchWord (State.afterReset 0 0 []) 8 0x1F)) =
        some (.undecodable (.reservedCommand 0x1F#5)) ∧
      after (fun s => (s.phase, s.cfg.invPolicy))
          (step { running 0 .big with phase := .aborted, input := [.rst strict] }) = some (.build, .abort) := by
  decide

/-! ### The configuration of this system-on-chip -/

/-- 20_memory R63: no two spans of the table intersect. -/
theorem test_soc_regions_disjoint : DisjointSpans socTable ∧ socTable.length = 13 := by decide

/-- 60_exceptions R216: fifteen lines are named, seventeen reserved, each source at its line. -/
theorem test_irqTable :
    irqTable.length = 32 ∧ (irqTable.filter Option.isSome).length = 15 ∧
      irqTable[IrqSource.line .discInterface]? = some (some .discInterface) ∧ irqTable[16]? = some none ∧
      irqTable[IrqSource.line .ipcPrimaryToSecondary]? = some (some .ipcPrimaryToSecondary) := by
  decide

/-- Lines of the scripts of 95_test_vectors part 3. -/
theorem test_assembleLine :
    assembleLine true "MAP STORAGE, 0x0D010000, 0x200, MMIO, BE" =
        .ok [.map "STORAGE" 0x0D010000#32 0x200#64 (.mmio .big 0#8)] ∧
      assembleLine true "FETCH32 0xFFFF0000       -> 0xEA000000   ; 02 / FFFF0000" = .ok [.read32 0xFFFF0000#32] ∧
      assembleLine true "SEED [0xEA, 0x00, 0x00]" = .ok [.seed (some [0xEA, 0x00, 0x00])] ∧
      assembleLine true "SEED NOTFOUND" = .ok [.seed none] ∧
      assembleLine true "WRITE8 0x10000000, 0x1FF" = .error .tooWide ∧
      assembleLine true "RESOLVE W, 4, 0x017FFFFD -> Unmapped" = .ok [.resolve .write .w32 0x017FFFFD#32] := by
  decide

/-! ### Witnesses: for each statement with hypotheses, concrete operands and states that meet them together

The theorem `test_witness_<Name>` is for `Obligations.<Name>`; its conjuncts are that statement's hypotheses in order,
clause by clause where it has several. -/

/-- A next state from a view of it. -/
theorem next_of_after {α : Type} {view : State → α} {o : Host.Outcome State Fault Refusal} {v : α}
    (h : after view o = some v) : ∃ t, o = .next t ∧ view t = v := by
  cases o <;> simp_all [after]

/-- The small running machine meets the invariant, whatever its straps and byte order. -/
theorem running_inv (straps : BitVec 66) (be : ByteOrder) : Inv (running straps be) where
  disjoint := by show DisjointSpans table; decide
  stores_length := rfl
  stores_wf := by
    intro i r h
    match i with
    | 0 | 1 | 2 | 3 => cases h; simp only [running, State.store]; decide
    | _ + 4 => cases h
  mmio_no_store := by
    intro i r b id h hk
    match i with
    | 0 | 3 => cases h; cases hk
    | 1 | 2 => rfl
    | _ + 4 => cases h
  handlers := by
    intro r b id h hk
    simp only [running, table, List.mem_cons, List.not_mem_nil, or_false] at h
    rcases h with rfl | rfl | rfl | rfl <;> cases hk <;> rfl
  handlers_unshared := by
    simp only [running, table, List.pairwise_cons, List.mem_cons, List.not_mem_nil, or_false, forall_eq_or_imp,
      forall_eq, reduceCtorEq, false_implies, implies_true, true_and, and_true, List.Pairwise.nil]
    intro be be' id h hk _ hb
    cases hk
    cases hb
    rfl
  dev_sorted := List.Pairwise.nil
  cause_phase := rfl
  run_ready := fun _ => rfl
  seeded := fun _ => rfl

/-- The small machine in BUILD meets the invariant. -/
theorem building_inv : Inv building where
  disjoint := by decide
  stores_length := rfl
  stores_wf := by
    intro i r h
    match i with
    | 0 | 1 => cases h; simp only [building, State.store]; decide
    | _ + 2 => cases h
  mmio_no_store := by
    intro i r b id h hk
    match i with
    | 0 | 1 => rfl
    | _ + 2 => cases h
  handlers := by
    intro r b id h hk
    simp only [building, List.mem_cons, List.not_mem_nil, or_false] at h
    rcases h with rfl | rfl <;> cases hk
  handlers_unshared := by simp [building]
  dev_sorted := List.Pairwise.nil
  cause_phase := rfl
  run_ready := by rintro (h | h) <;> cases h
  seeded := by rintro (h | h | h) <;> cases h

/-- A device of one 64-bit word at offset 0, that reads back what was written. -/
def latch : Handler :=
  { stateless := false
    knows := fun o => decide (o = 0#32)
    read := fun d _ _ => (d, d.headD 0)
    write := fun _ _ _ v => [v] }

/-- The latch under id 1, nothing else. -/
def latchOnly (id : HandlerId) : Option Handler := if id = 1#8 then some latch else none

/-- The latch's little-endian window. -/
def latchRegion : Region :=
  { name := "LATCH", base := 0x0D020000#32, size := 0x200#64, kind := .mmio .little 1#8 }

/-- A big-endian CPU in RUN, with the latch's window alone. -/
def latched : State := { running lenient .big with rt := [latchRegion], stores := [[]] }

/-- 60_exceptions R210: MAP reports the overlap before the taken handler, and refuses an unbound id before either. -/
theorem test_map_order :
    after (fun s => (s.phase, s.cause.code))
        (mapWith latchOnly ⟨"X", 0x0D0201FF#32, 4#64, .mmio .big 1#8⟩
          { building with rt := [latchRegion], stores := [[]] }) = some (.failed, .overlap) ∧
      refusal (mapWith latchOnly ⟨"X", 0x0D0201FF#32, 4#64, .mmio .big 2#8⟩
        { building with rt := [latchRegion], stores := [[]] }) = some (.notBound 2#8) ∧
      refusal (mapWith latchOnly ⟨"X", 0x0D020200#32, 4#64, .mmio .big 1#8⟩
        { building with rt := [latchRegion], stores := [[]] }) = some (.notShareable 1#8) := by
  decide

/-- 43_mmio_dispatch R180 (e): a big-endian CPU's `WRITE32 0x12345678` leaves 0x78563412 in a little-endian device. -/
theorem test_device_write :
    after (fun s => (s.dev, s.diag)) (accessWith latchOnly .write .w32 0x0D020000#32 0x12345678#64 latched) =
      some ([(1, [0x78563412#64])], []) := by
  decide

theorem test_witness_DecodeOfEncodeGivesTheCommandBack :
    (Instr.seed (some [])).wellFormed = true ∧ (Instr.write64 0xFFFFFFFF#32 0xFFFFFFFFFFFFFFFF#64).wellFormed = true := by
  decide

theorem test_witness_DecodedCommandKeepsItsCommandWord :
    decode { cmd := 0b01111#5, addr := 7#32, wdata := 9#64 } = .ok (.resolve .write .w64 7#32) := by decide

/-- Two frames that differ in ignored signals, for each clause in turn. -/
theorem test_witness_IgnoredOperandBitsChangeNothing :
    (let f : Frame := { cmd := 0x03#5, addr := 9#32, wdata := 1#64 }; let g : Frame := { cmd := 0x03#5, addr := 9#32 };
      f ≠ g ∧ f.cmd = g.cmd ∧ f.cmd.toNat < 0x04 ∧ f.addr = g.addr) ∧
    (let f : Frame := { cmd := 0x0F#5, wdata := 1#64 }; let g : Frame := { cmd := 0x0F#5 };
      f ≠ g ∧ f.cmd = g.cmd ∧ (0x08 ≤ f.cmd.toNat ∧ f.cmd.toNat < 0x10) ∧ f.addr = g.addr) ∧
    (let f : Frame := { cmd := 0x04#5, wdata := 0x1FF#64 }; let g : Frame := { cmd := 0x04#5, wdata := 0xFF#64 };
      f ≠ g ∧ f.addr = g.addr ∧ f.wdata.extractLsb' 0 8 = g.wdata.extractLsb' 0 8) ∧
    (let f : Frame := { cmd := 0x05#5, wdata := 0x1FFFF#64 }; let g : Frame := { cmd := 0x05#5, wdata := 0xFFFF#64 };
      f ≠ g ∧ f.addr = g.addr ∧ f.wdata.extractLsb' 0 16 = g.wdata.extractLsb' 0 16) ∧
    (let f : Frame := { cmd := 0x06#5, wdata := 0x100000005#64 }; let g : Frame := { cmd := 0x06#5, wdata := 5#64 };
      f ≠ g ∧ f.addr = g.addr ∧ f.wdata.extractLsb' 0 32 = g.wdata.extractLsb' 0 32) ∧
    (let f : Frame := { cmd := 0x07#5, wdata := 5#64, dBe := true }; let g : Frame := { cmd := 0x07#5, wdata := 5#64 };
      f ≠ g ∧ f.addr = g.addr ∧ f.wdata = g.wdata) ∧
    (let f : Frame := { cmd := 0x10#5, dKind := 1#2, dBe := true }; let g : Frame := { cmd := 0x10#5, dKind := 1#2 };
      f ≠ g ∧ f.addr = g.addr ∧ f.wdata = g.wdata ∧ f.dName = g.dName ∧ f.dKind = g.dKind ∧ f.dKind.toNat < 2) ∧
    (let f : Frame := { cmd := 0x10#5, dKind := 2#2, cpuOk := true }; let g : Frame := { cmd := 0x10#5, dKind := 2#2 };
      f ≠ g ∧ f.addr = g.addr ∧ f.wdata = g.wdata ∧ f.dName = g.dName ∧ f.dKind = g.dKind ∧
        (f.dBe = g.dBe ∧ f.dHandler = g.dHandler)) ∧
    (let f : Frame := { cmd := 0x11#5, addr := 1#32, wdata := 0x7FF#64 };
      let g : Frame := { cmd := 0x11#5, wdata := 0x3FF#64 };
      f ≠ g ∧ f.wdata.extractLsb' 0 10 = g.wdata.extractLsb' 0 10 ∧ f.cpuOk = g.cpuOk) ∧
    (let f : Frame := { cmd := 0x12#5, imgLen := 0x2001#64 }; let g : Frame := { cmd := 0x12#5 };
      f ≠ g ∧ f.imgFound = g.imgFound ∧ f.imgFound = false) ∧
    (let f : Frame := { cmd := 0x12#5, addr := 1#32, imgFound := true, imgLen := 1#64, img := [7] };
      let g : Frame := { cmd := 0x12#5, imgFound := true, imgLen := 1#64, img := [7] };
      f ≠ g ∧ f.imgFound = g.imgFound ∧ (f.imgLen = g.imgLen ∧ f.img = g.img)) ∧
    (let f : Frame := { cmd := 0x13#5, addr := 1#32 }; let g : Frame := { cmd := 0x13#5 }; f ≠ g ∧ f.cmd = g.cmd) := by
  decide

theorem test_witness_AssembleIsThePositionalSum :
    ([] : List Byte).length ≤ 8 ∧ ([1, 2, 3, 4, 5, 6, 7, 8] : List Byte).length ≤ 8 := by decide

theorem test_witness_SplitTakesTheNamedBits : 0 < Width.w8.bytes ∧ 7 < Width.w64.bytes := by decide

theorem test_witness_SplitAndAssembleAreInverse :
    ([1, 2, 3, 4] : List Byte).length = Width.w32.bytes ∧ (0xFF#64).toNat < 2 ^ (8 * Width.w8.bytes) := by decide

/-- The largest value of a width, and a byte access. -/
theorem test_witness_AdapterIsAnInvolutiveByteSwap :
    (0xFFFF#64).toNat < 2 ^ (8 * Width.w16.bytes) ∧ (0xAB#64).toNat < 2 ^ (8 * Width.w8.bytes) := by decide

/-- The empty Region of V-MAP-8. -/
theorem test_witness_SpansIntersectExactlyWhenTheyShareAByte :
    ({ name := "X", base := 0x500#32, size := 0#64, kind := .ram } : Region).size = 0 := rfl

/-- The last 4 bytes of SOC_CTRL. -/
theorem test_witness_AtMostOneEntryContainsAnAccess :
    ∃ r, DisjointSpans table ∧ table[2]? = some r ∧ contains r 0x0D80021C#32 .w32 = true :=
  ⟨_, by decide, rfl, by decide⟩

theorem test_witness_ResolveIsUnmappedExactlyWhenNothingContains :
    resolve table 0x0D80021C#32 .w32 .read =
      .mapped 2 { name := "SOC_CTRL", base := 0x0D800000#32, size := 0x220#64, kind := .mmio .big 0#8 } 0x21C := by
  decide

/-- Past the end of SOC_CTRL, and from below MEM2 into it. -/
theorem test_witness_StraddlingAccessIsUnmapped :
    (∃ r ∈ table, DisjointSpans table ∧
        (r.base.toNat ≤ (0x0D80021E#32).toNat ∧ (0x0D80021E#32).toNat < r.limit ∧
          r.limit < (0x0D80021E#32).toNat + Width.w32.bytes)) ∧
      ∃ r ∈ table, (0x0FFFFFFF#32).toNat < r.base.toNat ∧ r.base.toNat < (0x0FFFFFFF#32).toNat + Width.w16.bytes ∧
        r.base.toNat < r.limit := by
  decide

/-- A Region that ends at 2^32 and one that begins at 0. -/
theorem test_witness_AccessPastTheTopNeverWraps :
    (∀ r ∈ ([⟨"LOW", 0#32, 0x10#64, .ram⟩, ⟨"TOP", 0xFFFFFFF0#32, 0x10#64, .ram⟩] : List Region), r.limit ≤ 2 ^ 32) ∧
      2 ^ 32 < (0xFFFFFFFF#32).toNat + Width.w16.bytes := by
  decide

/-- A write that resolves to BOOT_ROM. -/
theorem test_witness_ResolveDoesNotDependOnDirection :
    ∃ r, DisjointSpans table ∧ table[3]? = some r ∧ r.kind = .rom ∧ contains r 0xFFFF1FFF#32 .w8 = true :=
  ⟨_, by decide, rfl, rfl, by decide⟩

theorem test_witness_ResolveReportsTheOwningRegion :
    ∃ r, ((running strict .big).phase = .build ∨ (running strict .big).phase = .loaded ∨
        (running strict .big).phase = .run) ∧ DisjointSpans (running strict .big).rt ∧
      (running strict .big).rt[3]? = some r ∧ contains r 0xFFFF1FF8#32 .w64 = true :=
  ⟨_, by decide, (running_inv _ _).disjoint, rfl, by decide⟩

theorem test_witness_ResolveReportsUnmapped :
    (building.phase = .build ∨ building.phase = .loaded ∨ building.phase = .run) ∧
      ∀ r ∈ building.rt, contains r 0x01800000#32 .w8 = false := by
  decide

/-- A RAM Region that begins where MEM1 ends (V-MAP-2), and a window for the stub. -/
theorem test_witness_MapAppendsADisjointRegion :
    building.phase = .build ∧
      (∀ be id, RegionKind.ram = .mmio be id → ∃ h, boundHandler id = some h ∧
        (h.stateless = true ∨ ∀ f ∈ building.rt, ∀ be', f.kind ≠ .mmio be' id)) ∧
      (∀ f ∈ building.rt, intersects ⟨"X", 0x01800000#32, 1#64, .ram⟩ f = false) ∧
      (∀ be id, stubWindow = .mmio be id → ∃ h, boundHandler id = some h ∧
        (h.stateless = true ∨ ∀ f ∈ building.rt, ∀ be', f.kind ≠ .mmio be' id)) ∧
      (∀ f ∈ building.rt, intersects ⟨"STORAGE", 0x0D010000#32, 0x200#64, stubWindow⟩ f = false) :=
  ⟨rfl, nofun, by decide, fun _ _ h => by cases h; exact ⟨stubHandler, rfl, .inl rfl⟩, by decide⟩

theorem test_witness_MappedRomReadsAsZero :
    building.stores.length = building.rt.length ∧
      ∃ t, exec (.map "R" 0x01800000#32 0x10#64 .rom) building = .next t ∧ t.phase = .build :=
  ⟨rfl, next_of_after (by decide)⟩

/-- V-MAP-1: the first entry is the lowest that intersects; for a RAM Region and for a stub window. -/
theorem test_witness_MapOverlapFailsTheMachine :
    ∃ f, building.phase = .build ∧
      ((∀ be id, RegionKind.ram = .mmio be id → (boundHandler id).isSome = true) ∧
        ∀ be id, stubWindow = .mmio be id → (boundHandler id).isSome = true) ∧
      building.rt[0]? = some f ∧
      (intersects ⟨"X", 0x017FFFFF#32, 1#64, .ram⟩ f = true ∧
        intersects ⟨"X", 0x017FFFFF#32, 1#64, stubWindow⟩ f = true) ∧
      (∀ (k : Nat) (g : Region), k < 0 → building.rt[k]? = some g →
        intersects ⟨"X", 0x017FFFFF#32, 1#64, .ram⟩ g = false) :=
  ⟨_, rfl, ⟨nofun, fun _ _ h => by cases h; rfl⟩, rfl, by decide, fun _ _ h => absurd h (Nat.not_lt_zero _)⟩

/-- Id 2 has no handler; the latch's id is taken, by a Region away from the new one and by one under it. -/
theorem test_witness_MapRefusesAnUnusableHandler :
    ({ building with rt := [latchRegion], stores := [[]] } : State).phase = .build ∧ latchOnly 2#8 = none ∧
      latchOnly 1#8 = some latch ∧ latch.stateless = false ∧ latchRegion ∈ [latchRegion] ∧
      latchRegion.kind = .mmio .little 1#8 ∧
      (∀ g ∈ [latchRegion], intersects ⟨"X", 0x0D020200#32, 4#64, .mmio .big 1#8⟩ g = false) ∧
      ∃ g ∈ [latchRegion], intersects ⟨"X", 0x0D0201FF#32, 4#64, .mmio .big 1#8⟩ g = true :=
  ⟨rfl, rfl, rfl, rfl, List.mem_singleton.mpr rfl, rfl, by decide, latchRegion, List.mem_singleton.mpr rfl, by decide⟩

theorem test_witness_CpuinitLatchesTheParameters :
    (building.phase = .build ∨ building.phase = .loaded) ∧ building.cpuReady = false := by decide

theorem test_witness_CpuinitFailureEndsTheMachine :
    let s : State := { building with phase := .loaded };
    (s.phase = .build ∨ s.phase = .loaded) ∧ s.cpuReady = false := by decide

/-- The entry below the target, MEM1, is no ROM. -/
theorem building_target :
    ∀ (k : Nat) (g : Region), k < 1 → building.rt[k]? = some g → g.kind ≠ .rom ∨ g.base ≠ 0xFFFF0000#32 := by
  intro k g hk h
  match k with
  | 0 => cases h; decide
  | _ + 1 => omega

theorem test_witness_SeedCopiesTheImage :
    ∃ r, Inv building ∧ building.phase = .build ∧ building.rt[1]? = some r ∧ r.kind = .rom ∧ r.base = 0xFFFF0000#32 ∧
      (∀ (k : Nat) (g : Region), k < 1 → building.rt[k]? = some g → g.kind ≠ .rom ∨ g.base ≠ 0xFFFF0000#32) ∧
      (List.replicate 0x2000 (0xEA#8 : Byte)).length ≤ r.size.toNat :=
  ⟨_, building_inv, rfl, rfl, rfl, rfl, building_target, by rw [List.length_replicate]; decide⟩

theorem test_witness_SeedNotFoundFailsTheMachine :
    ∃ r ∈ building.rt, building.phase = .build ∧ r.kind = .rom ∧ r.base = 0xFFFF0000#32 := by decide

theorem test_witness_SeedTooLargeFailsTheMachine :
    ∃ r, building.phase = .build ∧ building.rt[1]? = some r ∧ r.kind = .rom ∧ r.base = 0xFFFF0000#32 ∧
      (∀ (k : Nat) (g : Region), k < 1 → building.rt[k]? = some g → g.kind ≠ .rom ∨ g.base ≠ 0xFFFF0000#32) ∧
      r.size.toNat < (List.replicate 0x2001 (0xEA#8 : Byte)).length :=
  ⟨_, rfl, rfl, rfl, rfl, building_target, by rw [List.length_replicate]; decide⟩

theorem test_witness_StartEntersRun :
    let s : State := { building with phase := .loaded, cpuReady := true };
    s.phase = .loaded ∧ s.cpuReady = true := by decide

/-- One state for each of the three clauses. -/
theorem test_witness_ComposerCommandsRefuseOutOfTurn :
    (let s : State := { building with cpuReady := true };
      (s.phase = .build ∨ s.phase = .loaded) ∧ s.cpuReady = true) ∧
      (let s : State := { building with rt := table.take 3, stores := [[], [], []] };
        s.phase = .build ∧ ∀ r ∈ s.rt, r.kind ≠ .rom ∨ r.base ≠ 0xFFFF0000#32) ∧
      (let s : State := { building with phase := .loaded };
        s.phase = .loaded ∧ s.cpuReady = false) := by
  decide

/-- The last 8 bytes of the ROM, and the odd addresses of MEM2. -/
theorem test_witness_ReadOfStorageReturnsItsBytes :
    ∃ r q, (running lenient .little).phase = .run ∧ DisjointSpans (running lenient .little).rt ∧
      ((running lenient .little).rt[3]? = some r ∧ contains r 0xFFFF1FF8#32 .w64 = true ∧ (r.kind = .rom ∨ r.kind = .ram)) ∧
      ((running lenient .little).rt[0]? = some q ∧ contains q 0x10000001#32 .w32 = true ∧ (q.kind = .rom ∨ q.kind = .ram)) :=
  ⟨_, _, rfl, (running_inv _ _).disjoint, ⟨rfl, by decide, by decide⟩, rfl, by decide, by decide⟩

/-- The last byte of MEM2. -/
theorem test_witness_WriteOfRamChangesExactlyItsBytes :
    ∃ r, Inv (running lenient .big) ∧ (running lenient .big).phase = .run ∧ (running lenient .big).rt[0]? = some r ∧
      contains r 0x13FFFFFF#32 .w8 = true ∧ r.kind = .ram :=
  ⟨_, running_inv _ _, rfl, rfl, by decide, rfl⟩

/-- A 2-byte read at the end of an 8-byte write, and the same access again. -/
theorem test_witness_MixedWidthReadsSeeTheWrittenBytes :
    ∃ r, Inv (running lenient .big) ∧ (running lenient .big).phase = .run ∧ (running lenient .big).rt[0]? = some r ∧
      contains r 0x10000005#32 .w64 = true ∧ r.kind = .ram ∧
      ((0x10000005#32).toNat ≤ (0x1000000B#32).toNat ∧
        (0x1000000B#32).toNat + Width.w16.bytes ≤ (0x10000005#32).toNat + Width.w64.bytes) ∧
      (0x10000005#32).toNat + Width.w64.bytes ≤ (0x10000005#32).toNat + Width.w64.bytes :=
  ⟨_, running_inv _ _, rfl, rfl, by decide, rfl, by decide, by decide⟩

/-- Both policies. -/
theorem test_witness_WriteOfRomIsIgnoredOrAborts :
    ∃ r, (running lenient .big).phase = .run ∧ DisjointSpans (running lenient .big).rt ∧
      (running lenient .big).rt[3]? = some r ∧ contains r 0xFFFF1FFF#32 .w8 = true ∧ r.kind = .rom ∧
      (running lenient .big).cfg.invPolicy = .degrade ∧ (running strict .big).phase = .run ∧
      (running strict .big).rt = (running lenient .big).rt ∧ (running strict .big).cfg.invPolicy = .abort :=
  ⟨_, rfl, (running_inv _ _).disjoint, rfl, by decide, rfl, by decide, rfl, rfl, by decide⟩

/-- The first byte above MEM2, and 8 bytes at the very top. -/
theorem test_witness_UnmappedAccessDegrades :
    (running lenient .big).phase = .run ∧ (∀ r ∈ (running lenient .big).rt, contains r 0x14000000#32 .w8 = false) ∧
      (∀ r ∈ (running lenient .big).rt, contains r 0xFFFFFFFF#32 .w64 = false) ∧
      (running lenient .big).cfg.unmappedPolicy = .degrade := by
  decide

theorem test_witness_UnmappedAccessAborts :
    (running strict .big).phase = .run ∧ (∀ r ∈ (running strict .big).rt, contains r 0x14000000#32 .w8 = false) ∧
      (running strict .big).cfg.unmappedPolicy = .abort := by
  decide

theorem test_witness_StubReadReturnsZeroAndIsDiagnosed :
    ∃ r, (running strict .big).phase = .run ∧ DisjointSpans (running strict .big).rt ∧
      (running strict .big).rt[1]? = some r ∧ contains r 0x0D0101F8#32 .w64 = true ∧ r.kind = .mmio .big 0#8 :=
  ⟨_, rfl, (running_inv _ _).disjoint, rfl, by decide, rfl⟩

theorem test_witness_StubWriteIsDiscardedAndDiagnosed :
    ∃ r, (running strict .little).phase = .run ∧ DisjointSpans (running strict .little).rt ∧
      (running strict .little).rt[2]? = some r ∧ contains r 0x0D80021C#32 .w32 = true ∧ r.kind = .mmio .big 0#8 ∧
      contains r 0x0D80021C#32 .w8 = true :=
  ⟨_, rfl, (running_inv _ _).disjoint, rfl, by decide, rfl, by decide⟩

theorem test_witness_MmioAccessMakesOneCallAndNeverFails :
    latched.phase = .run ∧ DisjointSpans latched.rt ∧ latched.rt[0]? = some latchRegion ∧
      contains latchRegion 0x0D0201F8#32 .w64 = true ∧ latchRegion.kind = .mmio .little 1#8 ∧
      latchOnly 1#8 = some latch :=
  ⟨rfl, by decide, rfl, by decide, rfl, rfl⟩

theorem test_witness_MmioAccessIgnoresThePolicies :
    latched.phase = .run ∧ DisjointSpans latched.rt ∧ latched.rt[0]? = some latchRegion ∧
      contains latchRegion 0x0D020000#32 .w32 = true ∧ latchRegion.kind = .mmio .little 1#8 ∧
      latchOnly 1#8 = some latch :=
  ⟨rfl, by decide, rfl, by decide, rfl, rfl⟩

theorem test_witness_UnknownOffsetIsDiagnosedOnly :
    latched.phase = .run ∧ DisjointSpans latched.rt ∧ latched.rt[0]? = some latchRegion ∧
      contains latchRegion 0x0D020004#32 .w32 = true ∧ latchRegion.kind = .mmio .little 1#8 ∧
      latchOnly 1#8 = some latch ∧ latch.knows (0x0D020004#32 - latchRegion.base) = false :=
  ⟨rfl, by decide, rfl, by decide, rfl, rfl, by decide⟩

theorem test_witness_DeviceReadIsCutAndAdapted :
    latched.phase = .run ∧ DisjointSpans latched.rt ∧ latched.rt[0]? = some latchRegion ∧
      contains latchRegion 0x0D020000#32 .w16 = true ∧ latchRegion.kind = .mmio .little 1#8 ∧
      latchOnly 1#8 = some latch ∧ latch.knows (0x0D020000#32 - latchRegion.base) = true ∧ latch.stateless = false :=
  ⟨rfl, by decide, rfl, by decide, rfl, rfl, by decide, rfl⟩

/-- A device with state, and the same device marked stateless. -/
theorem test_witness_DeviceWriteIsAdaptedAndKept :
    latched.phase = .run ∧ DisjointSpans latched.rt ∧ latched.rt[0]? = some latchRegion ∧
      contains latchRegion 0x0D020000#32 .w64 = true ∧ latchRegion.kind = .mmio .little 1#8 ∧
      latchOnly 1#8 = some latch ∧ latch.knows (0x0D020000#32 - latchRegion.base) = true ∧ latch.stateless = false ∧
      ({ latch with stateless := true } : Handler).stateless = true :=
  ⟨rfl, by decide, rfl, by decide, rfl, rfl, by decide, rfl, rfl⟩

theorem test_witness_DeviceRoundTripReturnsTheWrittenValue :
    latched.phase = .run ∧ DisjointSpans latched.rt ∧ latched.rt[0]? = some latchRegion ∧
      contains latchRegion 0x0D020000#32 .w64 = true ∧ latchRegion.kind = .mmio .little 1#8 ∧
      latchOnly 1#8 = some latch ∧ latch.stateless = false ∧ latch.knows (0x0D020000#32 - latchRegion.base) = true ∧
      ∀ (d : DevState) (hv : Data), hv.toNat < 2 ^ (8 * Width.w64.bytes) →
        (latch.read (latch.write d (0x0D020000#32 - latchRegion.base) .w64 hv) (0x0D020000#32 - latchRegion.base) .w64).2
          = hv :=
  ⟨rfl, by decide, rfl, by decide, rfl, rfl, rfl, by decide, fun _ _ _ => rfl⟩

theorem test_witness_ReadValueFitsItsWidth :
    ∃ t, exec (readCommand .w16 0x10000001#32) (running 0 .big) = .next t ∧
      t.out.response = some { rdata := 0x2233#64 } :=
  next_of_after (view := fun t => t.out.response) (by decide)

theorem test_witness_AccessesAreRefusedOutsideRun : building.phase ≠ .run := by decide

/-- An access that completes, and one that ends the machine. -/
theorem test_witness_AccessCompletesOrEndsTheMachine :
    (∃ t, exec (if Dir.read = .read then readCommand .w8 0x10000000#32 else writeCommand .w8 0x10000000#32 0)
        (running lenient .big) = .next t ∧ t.phase = .run) ∧
      ∃ t, exec (if Dir.write = .read then readCommand .w8 0#32 else writeCommand .w8 0#32 0) (running strict .big) =
        .next t ∧ t.phase = .aborted :=
  ⟨next_of_after (by decide), next_of_after (by decide)⟩

/-- A state whose CAUSE already says OutOfBoundsError, which no run reaches. -/
theorem test_witness_OutOfBoundsNeverHappens :
    ∃ t, exec (.read8 0x10000000#32) { running 0 .big with cause := { code := .outOfBounds } } = .next t ∧
      t.cause.code = .outOfBounds :=
  next_of_after (view := fun t => t.cause.code) (by decide)

theorem test_witness_FailingCommandChangesOnlyCauseAndPhase :
    ∃ t, exec (.seed none) building = .next t ∧ t.ended = true :=
  next_of_after (by decide)

/-- An ended machine, and its way out. -/
theorem test_witness_EndedMachineIsLeftOnlyByReset :
    let s : State := { running 0 .big with phase := .aborted, input := [.rst strict] };
    s.ended = true ∧ ∃ t, step s = .next t ∧ t.phase = .build :=
  ⟨by decide, next_of_after (by decide)⟩

/-- A refused and an accepted command. -/
theorem test_witness_PhaseDecidesWhatIsAccepted :
    building.phase.accepts .start = false ∧ ∃ t, exec (.seed (some [1])) building = .next t ∧ t.phase = .loaded :=
  ⟨by decide, next_of_after (by decide)⟩

theorem test_witness_AfterTheBuildOnlyRamAndDevicesChange :
    ∃ t, exec (.write8 0x10000000#32 5#8) (running 0 .big) = .next t ∧ (running 0 .big).phase ≠ .build ∧
      (running 0 .big).phase = .run ∧ (running 0 .big).rt[3]? = some (table[3]'(by decide)) ∧ table[3].kind ≠ .ram :=
  (next_of_after (view := State.phase) (v := .run) (by decide)).imp
    fun _ h => ⟨h.1, by decide, rfl, rfl, by decide⟩

/-- A MAP that appends and an access that is diagnosed. -/
theorem test_witness_TableAndLogAreAppendOnly :
    (∃ t, exec (.map "X" 0x01800000#32 1#64 .ram) building = .next t ∧ t.nreg = 3) ∧
      ∃ t, exec (.read8 0x0D010000#32) (running 0 .big) = .next t ∧ t.diag.length = 1 :=
  ⟨next_of_after (by decide), next_of_after (view := fun t => t.diag.length) (by decide)⟩

theorem test_witness_EveryNextStateCarriesAResponse :
    ∃ t, exec .start { building with phase := .loaded, cpuReady := true } = .next t ∧ t.out.cpuStart = true :=
  next_of_after (view := fun t => t.out.cpuStart) (by decide)

theorem test_witness_StepRunsTheDecodedCommand :
    let s : State := { building with input := [.command { cmd := 0x12#5 }, .rst 0] };
    s.input = .command { cmd := 0x12#5 } :: [.rst 0] ∧ decode { cmd := 0x12#5 } = .ok (.seed none) := by
  decide

theorem test_witness_StepRefusesReservedAndIdles :
    (let s : State := { building with input := [.command { cmd := 0x1F#5 }] };
      s.input = .command { cmd := 0x1F#5 } :: [] ∧ decode { cmd := 0x1F#5 } = .error (.reservedCommand 0x1F#5)) ∧
      building.input = [] := by
  decide

theorem test_witness_RstDiscardsAllState :
    ({ running 0 .big with input := [.rst lenient, .rst strict] } : State).input = .rst lenient :: [.rst strict] := rfl

theorem test_witness_StepKeepsTheInvariant :
    Inv { running 0 .big with input := [.command { cmd := 0x04#5, addr := 0x10000000#32, wdata := 7#64 }] } ∧
      ∃ t, step { running 0 .big with input := [.command { cmd := 0x04#5, addr := 0x10000000#32, wdata := 7#64 }] } =
        .next t ∧ t.phase = .run :=
  ⟨{ running_inv 0 .big with }, next_of_after (by decide)⟩

theorem test_witness_NoStepFaultsUnderTheInvariant : Inv building := building_inv

end Sys2Proof.Tests
end

section
/-! SUPPORT. What CPUINIT, START, RESOLVE and any command can do when it answers a next state, said once beside
`accessWith_next`, `mapWith_next` and `execSeed_next`. -/

namespace Sys2Proof.Machine

variable {s t : State}

/-- Everything RESOLVE can do when it answers a next state (41_resolve R137). -/
theorem execResolve_next {dir : Dir} {w : Width} {a : Addr} (h : execResolve dir w a s = .next t) :
    (s.phase = .build ∨ s.phase = .loaded ∨ s.phase = .run) ∧
      t = s.respond (resolveResponse (resolve s.rt a w dir)) := by
  unfold execResolve at h
  split at h <;> cases h
  exact ⟨‹_›, rfl⟩

/-- Everything CPUINIT can do when it answers a next state (40_composition R114). -/
theorem execCpuinit_next {variant : BitVec 8} {be : ByteOrder} {vec cpuOk : Bool}
    (h : execCpuinit variant be vec cpuOk s = .next t) :
    (s.phase = .build ∨ s.phase = .loaded) ∧ s.cpuReady = false ∧
      ((cpuOk = true ∧ t = (latchCpu variant be vec s).drive
          { response := some {}, cpuDrive := some { variant := variant, be := be, vec := vec } }) ∨
        (cpuOk = false ∧ t = (startupFail { code := .cpuConstruction } s).drive
          { response := some { err := .cpuConstruction },
            cpuDrive := some { variant := variant, be := be, vec := vec } })) := by
  unfold execCpuinit at h
  split at h
  · rename_i hp
    split at h
    · cases h
    · rename_i hready
      refine ⟨hp, Bool.eq_false_of_not_eq_true hready, ?_⟩
      cases cpuOk <;> cases h
      · exact .inr ⟨rfl, rfl⟩
      · exact .inl ⟨rfl, rfl⟩
  · cases h

/-- Everything START can do when it answers a next state (40_composition R117). -/
theorem execStart_next (h : execStart s = .next t) :
    s.phase = .loaded ∧ s.cpuReady = true ∧
      t = State.drive { s with phase := .run } { response := some {}, cpuStart := true } := by
  unfold execStart at h
  split at h
  · split at h <;> cases h
    exact ⟨‹_›, ‹_›, rfl⟩
  · cases h

/-- A command is an access, RESOLVE, or one of the composer's four (30_encoding R89): the eight READn and WRITEn are
one operation. -/
theorem exec_next {i : Instr} (h : exec i s = .next t) :
    (∃ dir w a v, access dir w a v s = .next t) ∨ (∃ dir w a, execResolve dir w a s = .next t) ∨
      (∃ e, mapWith boundHandler e s = .next t) ∨
      (∃ variant be vec cpuOk, execCpuinit variant be vec cpuOk s = .next t) ∨
      (∃ image, execSeed image s = .next t) ∨ execStart s = .next t := by
  cases i with
  | read8 a | read16 a | read32 a | read64 a => exact .inl ⟨_, _, _, _, h⟩
  | write8 a v | write16 a v | write32 a v | write64 a v => exact .inl ⟨_, _, _, _, h⟩
  | resolve dir w a => exact .inr (.inl ⟨dir, w, a, h⟩)
  | map name base size kind => exact .inr (.inr (.inl ⟨_, h⟩))
  | cpuinit variant be vec cpuOk => exact .inr (.inr (.inr (.inl ⟨variant, be, vec, cpuOk, h⟩)))
  | seed image => exact .inr (.inr (.inr (.inr (.inl ⟨image, h⟩))))
  | start => exact .inr (.inr (.inr (.inr (.inr h))))

end Sys2Proof.Machine
end

section
/-! SUPPORT. The frame of RUN (40_composition R118): what a command may change there, kept by every update of the
state that the access pipeline makes, and so by every command. -/

namespace Sys2Proof.Machine

/-- `t` differs from `s`, a state in RUN, by no more than 40_composition R118 lets a command change. -/
structure RunEffect (s t : State) : Prop where
  /-- The pieces of state that may change at all; `out` carries the response. -/
  frame : t = { s with stores := t.stores, diag := t.diag, dev := t.dev, phase := t.phase, cause := t.cause,
                       out := t.out }
  /-- PHASE and CAUSE change only on an abort. -/
  phase : t.phase = .run ∧ t.cause = s.cause ∨ t.phase = .aborted
  stores_length : t.stores.length = s.stores.length
  /-- Only a RAM entry's store changes. -/
  store : ∀ j r, s.rt[j]? = some r → r.kind ≠ .ram → t.store j = s.store j

namespace RunEffect

variable {s t : State}

theorem refl (hp : s.phase = .run) : RunEffect s s := ⟨rfl, .inl ⟨hp, rfl⟩, rfl, fun _ _ _ _ => rfl⟩

theorem drive (h : RunEffect s t) (o : Output) : RunEffect s (t.drive o) :=
  { h with frame := congrArg (State.drive · o) h.frame }

theorem respond (h : RunEffect s t) (r : Response) : RunEffect s (t.respond r) := h.drive _

theorem setDev (h : RunEffect s t) (id : HandlerId) (d : DevState) : RunEffect s (t.setDev id d) :=
  { h with frame := congrArg (State.setDev · id d) h.frame }

theorem logDiag (h : RunEffect s t) (d : DiagRecord) : RunEffect s (t.logDiag d) :=
  { h with frame := congrArg (State.logDiag · d) h.frame }

theorem runtimeAbort (h : RunEffect s t) (c : Cause) : RunEffect s (runtimeAbort c t) :=
  { h with frame := congrArg (Machine.runtimeAbort c) h.frame, phase := .inr rfl }

/-- The store of a RAM entry may be replaced: no entry of another kind stands at its index. -/
theorem setStore (h : RunEffect s t) {i : Nat} {r : Region} (hi : s.rt[i]? = some r) (hram : r.kind = .ram)
    (m : Memory) : RunEffect s (t.setStore i m) where
  frame := congrArg (State.setStore · i m) h.frame
  phase := h.phase
  stores_length := by rw [setStore_stores, List.length_set, h.stores_length]
  store j r' hj hk := by
    have hne : j ≠ i := by
      rintro rfl
      rw [hi] at hj
      cases hj
      exact hk hram
    rw [store_setStore_ne t m hne, h.store j r' hj hk]

theorem rt_eq (h : RunEffect s t) : t.rt = s.rt := by rw [h.frame]

end RunEffect

variable {s t : State}

theorem invariantViolation_runEffect (hp : s.phase = .run) (code : ErrorCode) (a : Addr) (w : Width) (dir : Dir)
    (i : Nat) : RunEffect s (invariantViolation code a w dir i s) := by
  rcases invariantViolation_cases code a w dir i s with h | h <;> rw [h]
  · exact (RunEffect.refl hp).runtimeAbort _
  · exact (RunEffect.refl hp).respond _

theorem unmappedAccess_runEffect (hp : s.phase = .run) (dir : Dir) (w : Width) (a : Addr) :
    RunEffect s (unmappedAccess dir w a s) := by
  rcases unmappedAccess_cases dir w a s with h | ⟨v, h⟩ <;> rw [h]
  · exact (RunEffect.refl hp).runtimeAbort _
  · exact (RunEffect.refl hp).respond _

/-- A resolved access fits its storage Region, so only a write to RAM reaches a store (42_access R149, R150, R152). -/
theorem storageAccess_runEffect (hp : s.phase = .run) {dir : Dir} {i : Nat} {r : Region} {o : Nat} {w : Width}
    {a : Addr} (hr : resolve s.rt a w dir = .mapped i r o) (hk : r.kind = .rom ∨ r.kind = .ram) (v : Data) :
    RunEffect s (storageAccess dir i r o w v a s) := by
  have hfits := resolve_mapped_fits hr
  obtain ⟨hi, _, _⟩ := resolve_mapped hr
  cases dir with
  | read =>
    rw [storageAccess, regionRead_fits a s hfits]
    exact (RunEffect.refl hp).respond _
  | write =>
    rw [storageAccess, regionWrite_fits v a s hfits]
    split
    · exact invariantViolation_runEffect hp _ _ _ _ _
    · rename_i hrom
      exact ((RunEffect.refl hp).setStore hi (hk.resolve_left hrom) _).respond _

theorem mmioRead_runEffect (hp : s.phase = .run) (h : Handler) (id : HandlerId) (be : ByteOrder) (name : String)
    (o : Nat) (w : Width) : RunEffect s (mmioRead h id be name o w s) := by
  refine RunEffect.drive ?_ _
  rcases devRead_state_cases h id name (BitVec.ofNat 32 o) w s with hd | ⟨d, hd⟩ | hd <;> rw [hd]
  · exact .refl hp
  · exact (RunEffect.refl hp).setDev id d
  · exact (RunEffect.refl hp).logDiag _

theorem mmioWrite_runEffect (hp : s.phase = .run) (h : Handler) (id : HandlerId) (be : ByteOrder) (name : String)
    (o : Nat) (w : Width) (v : Data) : RunEffect s (mmioWrite h id be name o w v s) := by
  refine RunEffect.drive ?_ _
  rcases devWrite_cases h id name (BitVec.ofNat 32 o) w (adapt w v s.cpuBe be) s with hd | ⟨d, hd⟩ | hd <;> rw [hd]
  · exact .refl hp
  · exact (RunEffect.refl hp).setDev id d
  · exact (RunEffect.refl hp).logDiag _

/-- Every access that gives a next state keeps the frame of RUN, whatever the handlers are (42_access R145). -/
theorem accessWith_runEffect {handlers : HandlerId → Option Handler} {dir : Dir} {w : Width} {a : Addr} {v : Data}
    (h : accessWith handlers dir w a v s = .next t) : RunEffect s t := by
  obtain ⟨hp, ⟨_, rfl⟩ | ⟨i, r, o, hr, hk, rfl⟩ |
    ⟨i, r, o, be, id, hd, _, _, _, ⟨_, rfl⟩ | ⟨_, rfl⟩⟩⟩ := accessWith_next h
  · exact unmappedAccess_runEffect hp dir w a
  · exact storageAccess_runEffect hp hr hk v
  · exact mmioRead_runEffect hp hd id be r.name o w
  · exact mmioWrite_runEffect hp hd id be r.name o w v

/-- In RUN a command is an access or RESOLVE: the composer's four are refused (10_state R26). -/
theorem exec_runEffect {i : Instr} (hp : s.phase = .run) (h : exec i s = .next t) : RunEffect s t := by
  rcases exec_next h with ⟨dir, w, a, v, h⟩ | ⟨dir, w, a, h⟩ | ⟨e, h⟩ | ⟨variant, be, vec, cpuOk, h⟩ | ⟨image, h⟩ | h
  · exact accessWith_runEffect h
  · obtain ⟨_, rfl⟩ := execResolve_next h
    exact (RunEffect.refl hp).respond _
  · obtain ⟨hbuild, _⟩ := mapWith_next h
    simp [hp] at hbuild
  · obtain ⟨hphase, _⟩ := execCpuinit_next h
    simp [hp] at hphase
  · obtain ⟨hbuild, _⟩ := execSeed_next h
    simp [hp] at hbuild
  · obtain ⟨hloaded, _⟩ := execStart_next h
    simp [hp] at hloaded

/-- Outside BUILD no command changes the region table: MAP and SEED are refused there (10_state R26), and no other
command writes it. -/
theorem exec_rt_eq {i : Instr} (hp : s.phase ≠ .build) (h : exec i s = .next t) : t.rt = s.rt := by
  rcases exec_next h with ⟨dir, w, a, v, h⟩ | ⟨dir, w, a, h⟩ | ⟨e, h⟩ | ⟨variant, be, vec, cpuOk, h⟩ | ⟨image, h⟩ | h
  · exact (accessWith_runEffect h).rt_eq
  · obtain ⟨_, rfl⟩ := execResolve_next h
    rfl
  · obtain ⟨hbuild, _⟩ := mapWith_next h
    exact absurd hbuild hp
  · obtain ⟨_, _, ⟨_, rfl⟩ | ⟨_, rfl⟩⟩ := execCpuinit_next h <;> rfl
  · obtain ⟨hbuild, _⟩ := execSeed_next h
    exact absurd hbuild hp
  · obtain ⟨_, _, rfl⟩ := execStart_next h
    rfl

/-- Settles O50: outside BUILD no command writes the table, and in RUN every command keeps the frame `RunEffect`. -/
theorem afterTheBuildOnlyRamAndDevicesChange : Obligations.AfterTheBuildOnlyRamAndDevicesChange := by
  intro s t i h
  refine ⟨fun hp => exec_rt_eq hp h, fun hp => ?_⟩
  obtain ⟨hframe, hphase, hlength, hstore⟩ := exec_runEffect hp h
  exact ⟨hframe, hphase, hlength, hstore⟩

end Sys2Proof.Machine
end

section
/-! SUPPORT. What `resolve` answers, as an `↔` for each of its two answers, beside `resolveFrom_mapped`; then the
obligation of 41_resolve R131. -/

namespace Sys2Proof.Machine

variable {rt : List Region} {a : Addr} {w : Width} {dir : Dir}

/-- The search answers unmapped exactly when no entry contains the access, whatever index it starts from. -/
theorem resolveFrom_eq_unmapped_iff {k : Nat} :
    resolveFrom k a w rt = .unmapped ↔ ∀ r ∈ rt, ¬contains r a w = true := by
  induction rt generalizing k with
  | nil => simp [resolveFrom]
  | cons f rt ih =>
    rw [resolveFrom, List.forall_mem_cons]
    split
    next hc => simp [hc]
    next hc => simp [hc, ih]

/-- The search passes over an entry only when the entry does not contain the access. -/
theorem resolveFrom_mapped_first {k i : Nat} {r : Region} {o : Nat} (h : resolveFrom k a w rt = .mapped (k + i) r o) :
    ∀ (j : Nat) (f : Region), j < i → rt[j]? = some f → ¬contains f a w = true := by
  induction rt generalizing k i with
  | nil => simp
  | cons g rt ih =>
    rw [resolveFrom] at h
    split at h
    next =>
      have : k = k + i := (Resolution.mapped.inj h).1
      omega
    next hg =>
      -- the answer comes from the rest, so its index is past the head's
      obtain ⟨i', hi, _⟩ := resolveFrom_mapped h
      obtain rfl : i = i' + 1 := by omega
      rw [hi] at h
      rintro (_ | j) f hj hf
      · obtain rfl : g = f := by simpa using hf
        exact hg
      · exact ih h j f (by omega) (by simpa using hf)

/-- The search answers the first entry that contains the access, its index counted from `k`. -/
theorem resolveFrom_of_first {k i : Nat} {r : Region} (hget : rt[i]? = some r) (hc : contains r a w = true)
    (hfirst : ∀ (j : Nat) (f : Region), j < i → rt[j]? = some f → ¬contains f a w = true) :
    resolveFrom k a w rt = .mapped (k + i) r (a.toNat - r.base.toNat) := by
  induction rt generalizing k i with
  | nil => simp at hget
  | cons g rt ih =>
    cases i with
    | zero =>
      obtain rfl : g = r := by simpa using hget
      simp [resolveFrom, hc]
    | succ i =>
      have hg : ¬contains g a w = true := hfirst 0 g (by omega) rfl
      rw [resolveFrom, if_neg hg, show k + (i + 1) = k + 1 + i by omega]
      exact ih (by simpa using hget) fun j f hj hf => hfirst (j + 1) f (by omega) (by simpa using hf)

theorem resolve_eq_unmapped_iff : resolve rt a w dir = .unmapped ↔ ∀ r ∈ rt, ¬contains r a w = true :=
  resolveFrom_eq_unmapped_iff

theorem resolve_eq_mapped_iff {i : Nat} {r : Region} {o : Nat} :
    resolve rt a w dir = .mapped i r o ↔
      rt[i]? = some r ∧ contains r a w = true ∧ o = a.toNat - r.base.toNat ∧
        ∀ (j : Nat) (f : Region), j < i → rt[j]? = some f → ¬contains f a w = true := by
  constructor
  · intro h
    obtain ⟨hget, hc, ho⟩ := resolve_mapped h
    exact ⟨hget, hc, ho, resolveFrom_mapped_first (k := 0) (by rwa [Nat.zero_add])⟩
  · rintro ⟨hget, hc, rfl, hfirst⟩
    simpa only [resolve, Nat.zero_add] using resolveFrom_of_first (k := 0) hget hc hfirst

/-- Settles O12: the two answers of `resolve` by what contains the access, with `contains` read by `contains_iff`. -/
theorem resolveIsUnmappedExactlyWhenNothingContains :
    Obligations.ResolveIsUnmappedExactlyWhenNothingContains := by
  intro rt a w dir
  refine ⟨?_, fun i r o => ?_, fun r => contains_iff r a w⟩
  · simpa only [contains_iff, Region.limit] using resolve_eq_unmapped_iff (dir := dir)
  · simpa only [contains_iff, Region.limit] using resolve_eq_mapped_iff (dir := dir)

end Sys2Proof.Machine
end

section
/-! SUPPORT. The region select in a table with disjoint spans (41_resolve R131, R132): the one entry that contains an
access is the entry `resolve` answers. -/

namespace Sys2Proof.Machine

variable {rt : List Region} {a : Addr} {w : Width}

/-- Two spans that contain one access share its first byte. -/
theorem intersects_of_contains {e f : Region} (he : contains e a w = true) (hf : contains f a w = true) :
    intersects e f = true := by
  obtain ⟨hbase, hlimit⟩ := (contains_iff e a w).mp he
  obtain ⟨hbase', hlimit'⟩ := (contains_iff f a w).mp hf
  have hpos := width_bytes_pos w
  rw [intersects_iff]
  omega

/-- Of two entries of a disjoint table, the later does not contain an access that the earlier contains. -/
theorem not_contains_of_lt (hd : DisjointSpans rt) {i j : Nat} {e f : Region} (hij : i < j) (hi : rt[i]? = some e)
    (hj : rt[j]? = some f) (he : contains e a w = true) : ¬contains f a w = true := by
  obtain ⟨hilt, rfl⟩ := List.getElem?_eq_some_iff.mp hi
  obtain ⟨hjlt, rfl⟩ := List.getElem?_eq_some_iff.mp hj
  have hdisj := List.pairwise_iff_getElem.mp hd i j hilt hjlt hij
  intro hf
  rw [intersects_of_contains he hf] at hdisj
  cases hdisj

/-- In a disjoint table `resolve` answers whichever entry contains the access. -/
theorem resolve_of_contains (hd : DisjointSpans rt) {i : Nat} {r : Region} (hi : rt[i]? = some r)
    (hc : contains r a w = true) (dir : Dir) : resolve rt a w dir = .mapped i r (a.toNat - r.base.toNat) :=
  resolve_eq_mapped_iff.mpr
    ⟨hi, hc, rfl, fun _ _ hji hj hf => not_contains_of_lt hd hji hj hi hf hc⟩

end Sys2Proof.Machine
end

section
/-! SUPPORT. What a device call leaves unchanged, and that it does not read CFG: the new device state and the record
are computed from the other fields, so a call commutes with a change of the policy straps (43_mmio_dispatch R176 to
R178, R189). Then the obligation of R189. -/

namespace Sys2Proof.Machine

variable (h : Handler) (id : HandlerId) (be : ByteOrder) (name : String) (o : Nat) (off : BitVec 32) (w : Width)
  (v : Data) (s : State) (c : Cfg)

/-- A device call of a read changes DEV and DIAG only. -/
theorem devRead_frame :
    (devRead h id name off w s).1 =
      { s with dev := (devRead h id name off w s).1.dev, diag := (devRead h id name off w s).1.diag } := by
  rcases devRead_state_cases h id name off w s with hd | ⟨d, hd⟩ | hd <;> rw [hd] <;> rfl

/-- A device call of a write changes DEV and DIAG only. -/
theorem devWrite_frame :
    devWrite h id name off w v s =
      { s with dev := (devWrite h id name off w v s).dev, diag := (devWrite h id name off w v s).diag } := by
  rcases devWrite_cases h id name off w v s with hd | ⟨d, hd⟩ | hd <;> rw [hd] <;> rfl

/-- `mmio_read` changes DEV, DIAG and the output ports only. -/
theorem mmioRead_frame :
    mmioRead h id be name o w s =
      { s with dev := (mmioRead h id be name o w s).dev, diag := (mmioRead h id be name o w s).diag,
               out := (mmioRead h id be name o w s).out } :=
  congrArg (State.drive · _) (devRead_frame h id name (BitVec.ofNat 32 o) w s)

/-- `mmio_write` changes DEV, DIAG and the output ports only. -/
theorem mmioWrite_frame :
    mmioWrite h id be name o w v s =
      { s with dev := (mmioWrite h id be name o w v s).dev, diag := (mmioWrite h id be name o w v s).diag,
               out := (mmioWrite h id be name o w v s).out } :=
  congrArg (State.drive · _) (devWrite_frame h id name (BitVec.ofNat 32 o) w (adapt w v s.cpuBe be) s)

theorem keepDev_withCfg (d : DevState) :
    keepDev h id d { s with cfg := c } = { keepDev h id d s with cfg := c } := by
  unfold keepDev
  split <;> rfl

/-- The straps reach neither the new state nor the word read. -/
theorem devRead_withCfg :
    devRead h id name off w { s with cfg := c } =
      ({ (devRead h id name off w s).1 with cfg := c }, (devRead h id name off w s).2) := by
  unfold devRead
  split
  · exact congrArg (·, _) (keepDev_withCfg h id s c _)
  · rfl

theorem devWrite_withCfg :
    devWrite h id name off w v { s with cfg := c } = { devWrite h id name off w v s with cfg := c } := by
  unfold devWrite
  split
  · exact keepDev_withCfg h id s c _
  · rfl

theorem mmioRead_withCfg :
    mmioRead h id be name o w { s with cfg := c } = { mmioRead h id be name o w s with cfg := c } := by
  simp only [mmioRead, devRead_withCfg]
  rfl

theorem mmioWrite_withCfg :
    mmioWrite h id be name o w v { s with cfg := c } = { mmioWrite h id be name o w v s with cfg := c } := by
  simp only [mmioWrite, devWrite_withCfg]
  rfl

section
variable {handlers : HandlerId → Option Handler} {h id} (hid : handlers id = some h)
include hid

theorem mmioAccess_read :
    mmioAccess handlers .read id be name o w v s = .next (mmioRead h id be name o w s) := by
  simp only [mmioAccess, hid]

theorem mmioAccess_write :
    mmioAccess handlers .write id be name o w v s = .next (mmioWrite h id be name o w v s) := by
  simp only [mmioAccess, hid]

/-- What the MMIO arm does when the handler is bound: it gives a next state that reports no error, differs in DEV,
DIAG and the output ports only, and is the same one under any other straps (43_mmio_dispatch R189). -/
theorem mmioAccess_bound (dir : Dir) :
    ∃ t, mmioAccess handlers dir id be name o w v s = .next t ∧
      t = { s with dev := t.dev, diag := t.diag, out := t.out } ∧
      t.out.response.map Response.err = some .none ∧
      ∀ c : Cfg, mmioAccess handlers dir id be name o w v { s with cfg := c } = .next { t with cfg := c } := by
  cases dir with
  | read =>
    refine ⟨_, mmioAccess_read be name o w v s hid, mmioRead_frame h id be name o w s, rfl, fun c => ?_⟩
    rw [mmioAccess_read be name o w v _ hid, mmioRead_withCfg]
  | write =>
    refine ⟨_, mmioAccess_write be name o w v s hid, mmioWrite_frame h id be name o w v s, rfl, fun c => ?_⟩
    rw [mmioAccess_write be name o w v _ hid, mmioWrite_withCfg]

end

variable {s}

/-- In RUN an access that lies in an MMIO Region is the MMIO arm at its in-Region offset (42_access R145). -/
theorem accessWith_mmio (handlers : HandlerId → Option Handler) {dir : Dir} {w : Width} {a : Addr} {i : Nat}
    {r : Region} {be : ByteOrder} {id : HandlerId} (hp : s.phase = .run) (hd : DisjointSpans s.rt)
    (hi : s.rt[i]? = some r) (hc : contains r a w = true) (hk : r.kind = .mmio be id) :
    accessWith handlers dir w a v s = mmioAccess handlers dir id be r.name (a.toNat - r.base.toNat) w v s := by
  simp only [accessWith, if_pos hp, resolve_of_contains hd hi hc, hk]

/-- Settles O39: the access is its Region's MMIO arm, whose frame holds PHASE and CAUSE and which no strap reaches. -/
theorem mmioAccessIgnoresThePolicies : Obligations.MmioAccessIgnoresThePolicies := by
  intro hs s dir w a v i r be id h hp hd hi hc hk hid
  obtain ⟨t, ht, hframe, herr, hcfg⟩ :=
    mmioAccess_bound be r.name (a.toNat - r.base.toNat) w v s hid dir
  refine ⟨t, (accessWith_mmio v hs hp hd hi hc hk).trans ht, ?_, ?_, herr, fun c => ?_⟩
  · rw [hframe]
    exact hp
  · rw [hframe]
  · exact (accessWith_mmio (s := { s with cfg := c }) v hs hp hd hi hc hk).trans (hcfg c)

end Sys2Proof.Machine
end

section
/-! SUPPORT. The invariant `Inv` (10_state R29, R30, 60_exceptions R214) kept by every update of the state a command
makes, then by every command and every step; and no step from it faults. -/

namespace Sys2Proof.Machine

theorem intersects_comm (e f : Region) : intersects e f = intersects f e := by
  rw [intersects, intersects, max_comm, min_comm]

theorem ended_eq_true_iff {s : State} : s.ended = true ↔ s.phase = .failed ∨ s.phase = .aborted := by
  simp [State.ended]

/-- A new store lists nothing, so every store reads as before. -/
theorem store_appendRegion (rt' : List Region) (s : State) (i : Nat) : (appendRegion rt' s).store i = s.store i := by
  rw [State.store, State.store, appendRegion_stores, List.getElem?_append]
  split
  · rfl
  · rename_i hi
    rw [List.getElem?_eq_none (Nat.le_of_not_lt hi)]
    cases i - s.stores.length <;> rfl

theorem afterReset_inv (straps : BitVec 66) (epoch : Nat) (input : List Stimulus) :
    Inv (State.afterReset straps epoch input) where
  disjoint := List.Pairwise.nil
  stores_length := rfl
  stores_wf := by simp
  mmio_no_store := by simp
  handlers := by simp
  handlers_unshared := List.Pairwise.nil
  dev_sorted := sorted_nil
  cause_phase := rfl
  run_ready := by simp
  seeded := by simp

/-- Settles O56: RT, the stores and DEV are empty, CAUSE is clear, and BUILD asks for nothing more. -/
theorem resetMeetsTheInvariant : Obligations.ResetMeetsTheInvariant :=
  ⟨afterReset_inv _ _ _, afterReset_inv⟩

namespace Inv

variable {s : State}

/-- The invariant reads none of the ports and nothing of what the outside will present. -/
theorem withInput (h : Inv s) (input : List Stimulus) : Inv { s with input := input } := { h with }

theorem drive (h : Inv s) (o : Output) : Inv (s.drive o) := { h with }

theorem respond (h : Inv s) (r : Response) : Inv (s.respond r) := h.drive _

theorem logDiag (h : Inv s) (d : DiagRecord) : Inv (s.logDiag d) := { h with }

theorem setDev (h : Inv s) (id : HandlerId) (d : DevState) : Inv (s.setDev id d) :=
  { h with dev_sorted := sorted_put _ _ h.dev_sorted }

theorem latchCpu (h : Inv s) (variant : BitVec 8) (be : ByteOrder) (vec : Bool) :
    Inv (latchCpu variant be vec s) :=
  { h with run_ready := fun _ => rfl }

theorem startupFail (h : Inv s) {c : Cause} (hc : c.code.endsIn = some .failed) : Inv (startupFail c s) :=
  { h with
    cause_phase := hc
    run_ready := by simp
    seeded := by simp }

/-- Only a machine in RUN aborts, and what RUN has ABORTED keeps. -/
theorem runtimeAbort (h : Inv s) (hp : s.phase = .run) {c : Cause} (hc : c.code.endsIn = some .aborted) :
    Inv (runtimeAbort c s) :=
  { h with
    cause_phase := hc
    run_ready := fun _ => h.run_ready (.inl hp)
    seeded := fun _ => h.seeded (.inr (.inl hp)) }

/-- A storage Region's store may be replaced by another in canonical form. -/
theorem setStore (h : Inv s) {i : Nat} {r : Region} {m : Memory} (hi : s.rt[i]? = some r)
    (hk : r.kind = .rom ∨ r.kind = .ram) (hm : Memory.wf r.kind r.size.toNat m) : Inv (s.setStore i m) :=
  have hlt : i < s.stores.length := h.stores_length ▸ (List.getElem?_eq_some_iff.mp hi).1
  { h with
    stores_length := by rw [setStore_stores, List.length_set, setStore_rt, h.stores_length]
    stores_wf := fun j r' hj => by
      rcases eq_or_ne j i with rfl | hji
      · obtain rfl : r = r' := Option.some.inj (hi.symm.trans hj)
        rwa [store_setStore_self s m hlt]
      · rw [store_setStore_ne s m hji]
        exact h.stores_wf j r' hj
    mmio_no_store := fun j r' be id hj hk' => by
      have hji : j ≠ i := by
        rintro rfl
        obtain rfl : r = r' := Option.some.inj (hi.symm.trans hj)
        simp [hk'] at hk
      rw [store_setStore_ne s m hji]
      exact h.mmio_no_store j r' be id hj hk' }

/-- Bytes written inside a storage Region keep its store's canonical form. -/
theorem setStore_pokeAll (h : Inv s) {i : Nat} {r : Region} (hi : s.rt[i]? = some r)
    (hk : r.kind = .rom ∨ r.kind = .ram) {o : Nat} {bs : List Byte} (hfits : o + bs.length ≤ r.size.toNat) :
    Inv (s.setStore i (Memory.pokeAll r.kind (s.store i) o bs)) :=
  h.setStore hi hk (wf_pokeAll bs _ o (h.stores_wf i r hi) hfits)

/-- SEED may enter LOADED once a ROM stands at LOAD_ADDR (40_composition R115). -/
theorem enterLoaded (h : Inv s) (hp : s.phase = .build) (ht : (seedTarget s.rt).isSome = true) :
    Inv { s with phase := .loaded } :=
  { h with
    cause_phase := by simpa [State.ended, hp] using h.cause_phase
    run_ready := by simp
    seeded := fun _ => ht }

/-- START enters RUN with CPU_READY (40_composition R117). -/
theorem enterRun (h : Inv s) (hp : s.phase = .loaded) (hready : s.cpuReady = true) :
    Inv { s with phase := .run } :=
  { h with
    cause_phase := by simpa [State.ended, hp] using h.cause_phase
    run_ready := fun _ => hready
    seeded := fun _ => h.seeded (.inl hp) }

/-- An entry that MAP accepts joins the table: its span is new, its handler bound and, with device state, its own. -/
theorem appendRegion (h : Inv s) (hp : s.phase = .build) {e : Region} (hd : ∀ f ∈ s.rt, intersects e f = false)
    (hbound : unboundRefusal boundHandler e.kind = none)
    (hshare : sharingRefusal boundHandler s.rt e.kind = none) : Inv (appendRegion (s.rt ++ [e]) s) where
  disjoint := by
    refine List.pairwise_append.mpr ⟨h.disjoint, List.pairwise_singleton _ _, fun f hf g hg => ?_⟩
    rw [List.mem_singleton.mp hg, intersects_comm]
    exact hd f hf
  stores_length := by simp [h.stores_length]
  stores_wf i r hi := by
    rw [store_appendRegion]
    rcases lt_or_ge i s.rt.length with hlt | hge
    · exact h.stores_wf i r (by rwa [appendRegion_rt, List.getElem?_append_left hlt] at hi)
    · rw [State.store, List.getElem?_eq_none (h.stores_length ▸ hge)]
      exact wf_nil _ _
  mmio_no_store i r be id hi hk := by
    rw [store_appendRegion]
    rcases lt_or_ge i s.rt.length with hlt | hge
    · exact h.mmio_no_store i r be id (by rwa [appendRegion_rt, List.getElem?_append_left hlt] at hi) hk
    · rw [State.store, List.getElem?_eq_none (h.stores_length ▸ hge)]
      rfl
  handlers r be id hr hk := by
    rcases List.mem_append.mp hr with hr | hr
    · exact h.handlers r be id hr hk
    · rw [List.mem_singleton.mp hr] at hk
      exact unboundRefusal_none.mp hbound be id hk
  handlers_unshared := by
    refine List.pairwise_append.mpr ⟨h.handlers_unshared, List.pairwise_singleton _ _, ?_⟩
    intro f hf g hg be be' id hd hkf hkg hid
    rw [List.mem_singleton.mp hg] at hkg
    exact (sharingRefusal_none.mp hshare be' id hd hkg hid).resolve_right fun hnone => hnone f hf be hkf
  dev_sorted := h.dev_sorted
  cause_phase := h.cause_phase
  run_ready := h.run_ready
  seeded := by simp [hp]

end Inv

variable {s t : State}

theorem invariantViolation_inv (h : Inv s) (hp : s.phase = .run) {code : ErrorCode}
    (hcode : code.endsIn = some .aborted) (a : Addr) (w : Width) (dir : Dir) (i : Nat) :
    Inv (invariantViolation code a w dir i s) := by
  rcases invariantViolation_cases code a w dir i s with hv | hv <;> rw [hv]
  · exact h.runtimeAbort hp hcode
  · exact h.respond _

theorem unmappedAccess_inv (h : Inv s) (hp : s.phase = .run) (dir : Dir) (w : Width) (a : Addr) :
    Inv (unmappedAccess dir w a s) := by
  rcases unmappedAccess_cases dir w a s with hu | ⟨v, hu⟩ <;> rw [hu]
  · exact h.runtimeAbort hp rfl
  · exact h.respond _

theorem storageAccess_inv (h : Inv s) (hp : s.phase = .run) {dir : Dir} {i : Nat} {r : Region} {o : Nat} {w : Width}
    {a : Addr} (hr : resolve s.rt a w dir = .mapped i r o) (hk : r.kind = .rom ∨ r.kind = .ram) (v : Data) :
    Inv (storageAccess dir i r o w v a s) := by
  have hfits := resolve_mapped_fits hr
  obtain ⟨hi, _, _⟩ := resolve_mapped hr
  cases dir with
  | read =>
    rw [storageAccess, regionRead_fits a s hfits]
    exact h.respond _
  | write =>
    rw [storageAccess, regionWrite_fits v a s hfits]
    split
    · exact invariantViolation_inv h hp rfl _ _ _ _
    · exact (h.setStore_pokeAll hi hk (by rwa [split_length])).respond _

theorem mmioRead_inv (h : Inv s) (hd : Handler) (id : HandlerId) (be : ByteOrder) (name : String) (o : Nat)
    (w : Width) : Inv (mmioRead hd id be name o w s) := by
  refine Inv.drive ?_ _
  rcases devRead_state_cases hd id name (BitVec.ofNat 32 o) w s with hc | ⟨d, hc⟩ | hc <;> rw [hc]
  · exact h
  · exact h.setDev id d
  · exact h.logDiag _

theorem mmioWrite_inv (h : Inv s) (hd : Handler) (id : HandlerId) (be : ByteOrder) (name : String) (o : Nat)
    (w : Width) (v : Data) : Inv (mmioWrite hd id be name o w v s) := by
  refine Inv.drive ?_ _
  rcases devWrite_cases hd id name (BitVec.ofNat 32 o) w (adapt w v s.cpuBe be) s with hc | ⟨d, hc⟩ | hc <;> rw [hc]
  · exact h
  · exact h.setDev id d
  · exact h.logDiag _

theorem accessWith_inv {handlers : HandlerId → Option Handler} {dir : Dir} {w : Width} {a : Addr} {v : Data}
    (hinv : Inv s) (h : accessWith handlers dir w a v s = .next t) : Inv t := by
  obtain ⟨hp, ⟨_, rfl⟩ | ⟨i, r, o, hr, hk, rfl⟩ |
    ⟨i, r, o, be, id, hd, _, _, _, ⟨_, rfl⟩ | ⟨_, rfl⟩⟩⟩ := accessWith_next h
  · exact unmappedAccess_inv hinv hp dir w a
  · exact storageAccess_inv hinv hp hr hk v
  · exact mmioRead_inv hinv hd id be r.name o w
  · exact mmioWrite_inv hinv hd id be r.name o w v

theorem mapWith_inv {e : Region} (hinv : Inv s) (h : mapWith boundHandler e s = .next t) : Inv t := by
  obtain ⟨hp, hbound, ⟨j, _, rfl⟩ | ⟨hmap, hshare, rfl⟩⟩ := mapWith_next h
  · exact hinv.startupFail rfl
  · exact (hinv.appendRegion hp (asMap_ok hmap).2 hbound hshare).respond _

theorem seedImage_inv (hinv : Inv s) (hp : s.phase = .build) {i : Nat} {r : Region}
    (ht : seedTarget s.rt = some (i, r)) (image : List Byte) : Inv (seedImage i r image s) := by
  obtain ⟨hi, hrom, _⟩ := seedTarget_some ht
  unfold seedImage
  split
  · exact hinv.startupFail rfl
  · have hstore : Inv (s.setStore i (Memory.pokeAll r.kind (s.store i) 0 image)) :=
      hinv.setStore_pokeAll hi (.inl hrom) (by omega)
    exact (hstore.enterLoaded hp (by rw [setStore_rt, ht]; rfl)).respond _

/-- Every command keeps the invariant. -/
theorem exec_inv {i : Instr} (hinv : Inv s) (h : exec i s = .next t) : Inv t := by
  rcases exec_next h with ⟨dir, w, a, v, h⟩ | ⟨dir, w, a, h⟩ | ⟨e, h⟩ | ⟨variant, be, vec, cpuOk, h⟩ | ⟨image, h⟩ | h
  · exact accessWith_inv hinv h
  · obtain ⟨_, rfl⟩ := execResolve_next h
    exact hinv.respond _
  · exact mapWith_inv hinv h
  · obtain ⟨_, _, ⟨_, rfl⟩ | ⟨_, rfl⟩⟩ := execCpuinit_next h
    · exact (hinv.latchCpu variant be vec).drive _
    · exact (hinv.startupFail rfl).drive _
  · obtain ⟨hp, i, r, ht, ⟨_, rfl⟩ | ⟨bytes, _, rfl⟩⟩ := execSeed_next h
    · exact hinv.startupFail rfl
    · exact seedImage_inv hinv hp ht bytes
  · obtain ⟨hp, hready, rfl⟩ := execStart_next h
    exact (hinv.enterRun hp hready).drive _

/-- Settles O57: a step idles, resets, or runs a command, and each keeps the invariant. -/
theorem stepKeepsTheInvariant : Obligations.StepKeepsTheInvariant := by
  intro s t hinv h
  rcases step_next h with ⟨_, rfl⟩ | ⟨straps, rest, _, rfl⟩ | ⟨f, rest, i, _, _, hexec⟩
  · exact hinv
  · exact afterReset_inv _ _ _
  · exact exec_inv (hinv.withInput rest) hexec

/-- The access pipeline faults only at an MMIO entry whose handler is not bound (log entry 22). -/
theorem accessWith_fault {handlers : HandlerId → Option Handler} {dir : Dir} {w : Width} {a : Addr} {v : Data}
    {f : Fault} (h : accessWith handlers dir w a v s = .fault f) :
    ∃ r ∈ s.rt, ∃ be id, r.kind = .mmio be id ∧ handlers id = none := by
  unfold accessWith at h
  split at h
  · split at h
    · cases h
    · rename_i i r o hr
      split at h
      · rename_i be id hk
        refine ⟨r, List.mem_of_getElem? (resolve_mapped hr).1, be, id, hk, ?_⟩
        unfold mmioAccess at h
        split at h
        · assumption
        · cases h
        · cases h
      · cases h
      · cases h
  · cases h

/-- No command but an access faults. -/
theorem exec_fault {i : Instr} {f : Fault} (h : exec i s = .fault f) :
    ∃ dir w a v, access dir w a v s = .fault f := by
  cases i with
  | read8 a | read16 a | read32 a | read64 a => exact ⟨_, _, _, _, h⟩
  | write8 a v | write16 a v | write32 a v | write64 a v => exact ⟨_, _, _, _, h⟩
  | resolve dir w a =>
    simp only [exec, execResolve] at h
    split at h <;> cases h
  | map name base size kind =>
    simp only [exec, execMap, mapWith] at h
    (repeat' split at h) <;> cases h
  | cpuinit variant be vec cpuOk =>
    simp only [exec, execCpuinit] at h
    (repeat' split at h) <;> cases h
  | seed image =>
    simp only [exec, execSeed] at h
    (repeat' split at h) <;> cases h
  | start =>
    simp only [exec, execStart] at h
    (repeat' split at h) <;> cases h

theorem exec_ne_fault {i : Instr} (hinv : Inv s) (f : Fault) : exec i s ≠ .fault f := by
  intro h
  obtain ⟨dir, w, a, v, h⟩ := exec_fault h
  obtain ⟨r, hr, be, id, hk, hnone⟩ := accessWith_fault h
  have hsome := hinv.handlers r be id hr hk
  rw [hnone] at hsome
  cases hsome

/-- A step that faults is a command that faults. -/
theorem step_fault {f : Fault} (h : step s = .fault f) : ∃ i rest, exec i { s with input := rest } = .fault f := by
  unfold step nextStimulus at h
  split at h
  · cases h
  · cases h
  · rename_i g s' hn
    split at hn
    · cases hn
    · cases hn
      split at h
      · exact ⟨_, _, h⟩
      · cases h

/-- Settles O58: the one fault needs an entry that the invariant excludes. -/
theorem noStepFaultsUnderTheInvariant : Obligations.NoStepFaultsUnderTheInvariant := by
  intro s f hinv h
  obtain ⟨i, rest, h⟩ := step_fault h
  exact exec_ne_fault (hinv.withInput rest) f h

end Sys2Proof.Machine
end

section
/-! SUPPORT. What the decoder answers, once for each group of command words of 30_encoding R89; then the obligations
about decoding and encoding. -/

namespace Sys2Proof

open Machine (readCommand writeCommand)

variable {f : Frame}

/-! ### The command words, by number and by their fields (30_encoding R82, R89) -/

/-- The word of an access: class 0, the direction, the width. -/
abbrev accessWord (dir : Dir) (w : Width) : BitVec 5 := 0b00#2 ++ dir.bit ++ w.code

/-- The word of a RESOLVE: class 1, the direction, the width. -/
abbrev resolveWord (dir : Dir) (w : Width) : BitVec 5 := 0b01#2 ++ dir.bit ++ w.code

theorem eq_readWord : ∀ c : BitVec 5, c.toNat < 0x04 →
    c = accessWord .read (Width.ofCode (c.extractLsb' 0 2)) := by decide

theorem eq_writeWord : ∀ c : BitVec 5, 0x04 ≤ c.toNat → c.toNat < 0x08 →
    c = accessWord .write (Width.ofCode (c.extractLsb' 0 2)) := by decide

theorem eq_resolveWord : ∀ c : BitVec 5, 0x08 ≤ c.toNat → c.toNat < 0x10 →
    c = resolveWord (Dir.ofBit (c.getLsbD 2)) (Width.ofCode (c.extractLsb' 0 2)) := by decide

/-- Which command words there are (30_encoding R89, R90). -/
theorem command_word_cases (c : BitVec 5) :
    (∃ w, c = accessWord .read w) ∨ (∃ w, c = accessWord .write w) ∨ (∃ dir w, c = resolveWord dir w) ∨
      c = 0x10#5 ∨ c = 0x11#5 ∨ c = 0x12#5 ∨ c = 0x13#5 ∨ 0x14 ≤ c.toNat := by
  have hnumber : ∀ c : BitVec 5, c.toNat < 0x04 ∨ (0x04 ≤ c.toNat ∧ c.toNat < 0x08) ∨
      (0x08 ≤ c.toNat ∧ c.toNat < 0x10) ∨
      c = 0x10#5 ∨ c = 0x11#5 ∨ c = 0x12#5 ∨ c = 0x13#5 ∨ 0x14 ≤ c.toNat := by decide
  rcases hnumber c with h | ⟨h, h'⟩ | ⟨h, h'⟩ | h
  · exact .inl ⟨_, eq_readWord c h⟩
  · exact .inr (.inl ⟨_, eq_writeWord c h h'⟩)
  · exact .inr (.inr (.inl ⟨_, _, eq_resolveWord c h h'⟩))
  · exact .inr (.inr (.inr h))

theorem accessWord_lt (dir : Dir) (w : Width) : (accessWord dir w).toNat < 0x08 := by
  cases dir <;> cases w <;> decide

theorem resolveWord_lt (dir : Dir) (w : Width) : (resolveWord dir w).toNat < 0x10 := by
  cases dir <;> cases w <;> decide

/-- The reserved words are four of class COMPOSE and the whole of class 3 (30_encoding R90). -/
theorem reserved_class : ∀ c : BitVec 5, 0x14 ≤ c.toNat →
    c.extractLsb' 3 2 = 0b11#2 ∨ c.extractLsb' 3 2 = 0b10#2 ∧ 4 ≤ (c.extractLsb' 0 3).toNat := by decide

/-! ### The decoder by command word -/

theorem decode_read {w : Width} (h : f.cmd = accessWord .read w) : decode f = .ok (readCommand w f.addr) := by
  simp only [decode, decodeAccess, h]
  cases w <;> rfl

theorem decode_write {w : Width} (h : f.cmd = accessWord .write w) :
    decode f = .ok (writeCommand w f.addr f.wdata) := by
  simp only [decode, decodeAccess, h]
  cases w with
  | w8 | w16 | w32 => rw [writeCommand, BitVec.setWidth_eq_extractLsb' (by decide)]; rfl
  | w64 => rfl

theorem decode_resolve {dir : Dir} {w : Width} (h : f.cmd = resolveWord dir w) :
    decode f = .ok (.resolve dir w f.addr) := by
  simp only [decode, h]
  cases dir <;> cases w <;> rfl

theorem decode_map (h : f.cmd = 0x10#5) {k : RegionKind} (hk : decodeKind f = some k) :
    decode f = .ok (.map f.dName f.addr f.wdata k) := by
  simp [decode, decodeCompose, h, hk]

theorem decode_map_reserved (h : f.cmd = 0x10#5) (hk : decodeKind f = none) : decode f = .error .reservedKind := by
  simp [decode, decodeCompose, h, hk]

theorem decode_cpuinit (h : f.cmd = 0x11#5) :
    decode f = .ok (.cpuinit (f.wdata.extractLsb' 0 8) (ByteOrder.ofBit (f.wdata.getLsbD 8)) (f.wdata.getLsbD 9)
      f.cpuOk) := by
  simp [decode, decodeCompose, h]

theorem decode_seed (h : f.cmd = 0x12#5) :
    decode f = if f.imgFound then
        if f.imgLen.toNat ≤ f.img.length then .ok (.seed (some (f.img.take f.imgLen.toNat))) else .error .imageShort
      else .ok (.seed none) := by
  simp [decode, decodeCompose, h]

theorem decode_seed_none (h : f.cmd = 0x12#5) (hi : f.imgFound = false) : decode f = .ok (.seed none) := by
  simp [decode_seed h, hi]

theorem decode_seed_image (h : f.cmd = 0x12#5) (hi : f.imgFound = true) (hl : f.imgLen.toNat ≤ f.img.length) :
    decode f = .ok (.seed (some (f.img.take f.imgLen.toNat))) := by
  simp [decode_seed h, hi, hl]

theorem decode_seed_short (h : f.cmd = 0x12#5) (hi : f.imgFound = true) (hl : f.img.length < f.imgLen.toNat) :
    decode f = .error .imageShort := by
  simp [decode_seed h, hi, Nat.not_le.mpr hl]

theorem decode_start (h : f.cmd = 0x13#5) : decode f = .ok .start := by
  simp [decode, decodeCompose, h]

theorem decode_reserved (h : 0x14 ≤ f.cmd.toNat) : decode f = .error (.reservedCommand f.cmd) := by
  rcases reserved_class f.cmd h with hc | ⟨hc, hlow⟩
  · simp only [decode, hc]
  · simp only [decode, hc, decodeCompose]
    split
    case h_5 => rfl
    all_goals
      rename_i hword
      rw [hword] at hlow
      exact absurd hlow (by decide)

/-! ### The Region kind of a MAP frame -/

theorem decodeKind_mmio (h : f.dKind = 0b10#2) :
    decodeKind f = some (.mmio (ByteOrder.ofBit f.dBe) f.dHandler) := by
  simp only [decodeKind, h]

theorem decodeKind_eq_none_iff : decodeKind f = none ↔ f.dKind = 0b11#2 := by
  unfold decodeKind
  split <;> simp_all

/-- The byte order and the handler are read for MMIO only (30_encoding R84, R90). -/
theorem decodeKind_congr {g : Frame} (hk : f.dKind = g.dKind)
    (h : f.dKind.toNat < 2 ∨ f.dBe = g.dBe ∧ f.dHandler = g.dHandler) : decodeKind f = decodeKind g := by
  unfold decodeKind
  rw [← hk]
  split
  case h_3 hc =>
    obtain ⟨hbe, hid⟩ := h.resolve_left (by rw [hc]; decide)
    rw [hbe, hid]
  all_goals rfl

/-! ### The command word of an encoded command -/

theorem encode_readCommand_cmd (w : Width) (a : Addr) : (encode (readCommand w a)).cmd = accessWord .read w := by
  cases w <;> rfl

theorem encode_writeCommand_cmd (w : Width) (a : Addr) (v : Data) :
    (encode (writeCommand w a v)).cmd = accessWord .write w := by
  cases w <;> rfl

theorem readCommand_wellFormed (w : Width) (a : Addr) : (readCommand w a).wellFormed = true := by
  cases w <;> rfl

theorem writeCommand_wellFormed (w : Width) (a : Addr) (v : Data) : (writeCommand w a v).wellFormed = true := by
  cases w <;> rfl

/-! ### Operands on the wider port -/

/-- A value laid on the 64-bit port is read back from its low bits (30_encoding R88). -/
theorem setWidth_setWidth_self {n : Nat} (v : BitVec n) (hn : n ≤ 64) : (v.setWidth 64).setWidth n = v := by
  rw [BitVec.setWidth_setWidth_of_le v hn, BitVec.setWidth_eq]

theorem ofBit_bit (be : ByteOrder) : ByteOrder.ofBit be.bit = be := by cases be <;> rfl

section cpuWord

variable (vec be : Bool) (variant : BitVec 8)

/-- `wdata` of a CPUINIT: `cpu_variant` in bits 7..0, `cpu_be` in bit 8, `cpu_vec` in bit 9 (30_encoding R83). -/
abbrev cpuWord : BitVec 64 := (BitVec.ofBool vec ++ BitVec.ofBool be ++ variant).setWidth 64

theorem cpuWord_variant : (cpuWord vec be variant).extractLsb' 0 8 = variant := by
  rw [BitVec.extractLsb'_setWidth_of_le (by decide), BitVec.extractLsb'_append_eq_right]

theorem cpuWord_be : (cpuWord vec be variant).getLsbD 8 = be := by
  rw [BitVec.getLsbD_setWidth, BitVec.getLsbD_append, BitVec.getLsbD_append]
  simp

theorem cpuWord_vec : (cpuWord vec be variant).getLsbD 9 = vec := by
  rw [BitVec.getLsbD_setWidth, BitVec.getLsbD_append, BitVec.getLsbD_append]
  simp

end cpuWord

/-! ### The obligations -/

/-- Settles O1, by the command: its word selects its row, and each operand is read from where it was laid. -/
theorem decodeOfEncodeGivesTheCommandBack : Obligations.DecodeOfEncodeGivesTheCommandBack := by
  intro i hi
  cases i with
  | read8 a => exact decode_read (w := .w8) rfl
  | read16 a => exact decode_read (w := .w16) rfl
  | read32 a => exact decode_read (w := .w32) rfl
  | read64 a => exact decode_read (w := .w64) rfl
  | write8 a v =>
    rw [decode_write (w := .w8) rfl]
    exact congrArg (Except.ok <| Instr.write8 a ·) (setWidth_setWidth_self v (by decide))
  | write16 a v =>
    rw [decode_write (w := .w16) rfl]
    exact congrArg (Except.ok <| Instr.write16 a ·) (setWidth_setWidth_self v (by decide))
  | write32 a v =>
    rw [decode_write (w := .w32) rfl]
    exact congrArg (Except.ok <| Instr.write32 a ·) (setWidth_setWidth_self v (by decide))
  | write64 a v => exact decode_write (w := .w64) rfl
  | resolve dir w a => exact decode_resolve rfl
  | map name base size kind =>
    refine decode_map rfl ?_
    cases kind with
    | rom | ram => rfl
    | mmio be id =>
      rw [decodeKind_mmio rfl]
      exact congrArg (some <| RegionKind.mmio · id) (ofBit_bit be)
  | cpuinit variant be vec ok =>
    rw [decode_cpuinit rfl]
    simp only [encode]
    rw [cpuWord_variant, cpuWord_be, cpuWord_vec, ofBit_bit]
  | seed image =>
    cases image with
    | none => exact decode_seed_none rfl rfl
    | some bytes =>
      have hlen : (BitVec.ofNat 64 bytes.length).toNat = bytes.length := Nat.mod_eq_of_lt (of_decide_eq_true hi)
      rw [decode_seed_image rfl rfl (le_of_eq hlen)]
      simp only [encode, hlen, List.take_length]
  | start => exact decode_start rfl

/-- Settles O2, by the command word. -/
theorem decodedCommandKeepsItsCommandWord : Obligations.DecodedCommandKeepsItsCommandWord := by
  intro f i h
  rcases command_word_cases f.cmd with ⟨w, hc⟩ | ⟨w, hc⟩ | ⟨dir, w, hc⟩ | hc | hc | hc | hc | hc
  · cases (decode_read hc).symm.trans h
    exact ⟨readCommand_wellFormed _ _, (encode_readCommand_cmd _ _).trans hc.symm⟩
  · cases (decode_write hc).symm.trans h
    exact ⟨writeCommand_wellFormed _ _ _, (encode_writeCommand_cmd _ _ _).trans hc.symm⟩
  · cases (decode_resolve hc).symm.trans h
    exact ⟨rfl, hc.symm⟩
  · cases hk : decodeKind f with
    | some k =>
      cases (decode_map hc hk).symm.trans h
      exact ⟨rfl, hc.symm⟩
    | none => cases (decode_map_reserved hc hk).symm.trans h
  · cases (decode_cpuinit hc).symm.trans h
    exact ⟨rfl, hc.symm⟩
  · cases hi : f.imgFound with
    | false =>
      cases (decode_seed_none hc hi).symm.trans h
      exact ⟨rfl, hc.symm⟩
    | true =>
      rcases Nat.lt_or_ge f.img.length f.imgLen.toNat with hl | hl
      · cases (decode_seed_short hc hi hl).symm.trans h
      · cases (decode_seed_image hc hi hl).symm.trans h
        exact ⟨decide_eq_true ((List.length_take_le _ _).trans_lt f.imgLen.isLt), hc.symm⟩
  · cases (decode_start hc).symm.trans h
    exact ⟨rfl, hc.symm⟩
  · cases (decode_reserved hc).symm.trans h

/-- A word below 0x10 is in none of the three cases the decoder refuses. -/
theorem not_refused_of_lt (h : f.cmd.toNat < 0x10) :
    ¬(0x14 ≤ f.cmd.toNat ∨ (f.cmd = 0x10#5 ∧ f.dKind = 0b11#2) ∨
      (f.cmd = 0x12#5 ∧ f.imgFound = true ∧ f.img.length < f.imgLen.toNat)) := by
  rintro (hc | ⟨hc, _⟩ | ⟨hc, _⟩)
  · omega
  · simp [hc] at h
  · simp [hc] at h

/-- Settles O3, by the command word. -/
theorem decoderRefusesExactlyReservedFrames : Obligations.DecoderRefusesExactlyReservedFrames := by
  intro f
  rcases command_word_cases f.cmd with ⟨w, hc⟩ | ⟨w, hc⟩ | ⟨dir, w, hc⟩ | hc | hc | hc | hc | hc
  · have hlt := accessWord_lt .read w
    exact iff_of_false (by simp [decode_read hc]) (not_refused_of_lt (by rw [hc]; omega))
  · have hlt := accessWord_lt .write w
    exact iff_of_false (by simp [decode_write hc]) (not_refused_of_lt (by rw [hc]; omega))
  · have hlt := resolveWord_lt dir w
    exact iff_of_false (by simp [decode_resolve hc]) (not_refused_of_lt (by rwa [hc]))
  · rw [← decodeKind_eq_none_iff]
    cases hk : decodeKind f with
    | some k => simp [decode_map hc hk, hc]
    | none => simp [decode_map_reserved hc hk, hc]
  · simp [decode_cpuinit hc, hc]
  · cases hi : f.imgFound with
    | false => simp [decode_seed_none hc hi, hc]
    | true =>
      rcases Nat.lt_or_ge f.img.length f.imgLen.toNat with hl | hl
      · simp [decode_seed_short hc hi hl, hc, hl]
      · simp [decode_seed_image hc hi hl, hc, hl]
  · simp [decode_start hc, hc]
  · simp [decode_reserved hc, hc]

/-- The low `n` bits of a write's data decide the value of the width. -/
theorem writeCommand_congr {w : Width} {a : Addr} {v v' : Data}
    (h : v.extractLsb' 0 (8 * w.bytes) = v'.extractLsb' 0 (8 * w.bytes)) :
    writeCommand w a v = writeCommand w a v' := by
  rw [← BitVec.setWidth_eq_extractLsb' (by cases w <;> decide),
    ← BitVec.setWidth_eq_extractLsb' (by cases w <;> decide)] at h
  cases w with
  | w8 => exact congrArg (Instr.write8 a) h
  | w16 => exact congrArg (Instr.write16 a) h
  | w32 => exact congrArg (Instr.write32 a) h
  | w64 => exact congrArg (Instr.write64 a) (by simpa [Width.bytes] using h)

theorem decode_write_congr {g : Frame} {w : Width} (h : f.cmd = g.cmd) (hc : f.cmd = accessWord .write w)
    (ha : f.addr = g.addr) (hv : f.wdata.extractLsb' 0 (8 * w.bytes) = g.wdata.extractLsb' 0 (8 * w.bytes)) :
    decode f = decode g := by
  rw [decode_write hc, decode_write (h.symm.trans hc), ha, writeCommand_congr hv]

/-- Settles O5: in each clause the decoder's answer names none of the signals left free. -/
theorem ignoredOperandBitsChangeNothing : Obligations.IgnoredOperandBitsChangeNothing := by
  intro f g h
  refine ⟨?_, fun hc ha hv => decode_write_congr (w := .w8) h hc ha hv,
    fun hc ha hv => decode_write_congr (w := .w16) h hc ha hv,
    fun hc ha hv => decode_write_congr (w := .w32) h hc ha hv,
    fun hc ha hv => decode_write_congr (w := .w64) h hc ha (by rw [hv]), ?_, ?_, ?_, ?_⟩
  · rintro (hc | ⟨hc, hc'⟩) ha
    · have hw := eq_readWord f.cmd hc
      rw [decode_read hw, decode_read (h.symm.trans hw), ha]
    · have hw := eq_resolveWord f.cmd hc hc'
      rw [decode_resolve hw, decode_resolve (h.symm.trans hw), ha]
  · intro hc ha hv hname hkind hmmio
    have hdk := decodeKind_congr hkind hmmio
    cases hk : decodeKind f with
    | some k => rw [decode_map hc hk, decode_map (h.symm.trans hc) (hdk.symm.trans hk), ha, hv, hname]
    | none => rw [decode_map_reserved hc hk, decode_map_reserved (h.symm.trans hc) (hdk.symm.trans hk)]
  · intro hc hv hok
    have hbit (j : Nat) (hj : j < 10) : f.wdata.getLsbD j = g.wdata.getLsbD j := by
      simpa [hj] using congrArg (BitVec.getLsbD · j) hv
    have hvariant : f.wdata.extractLsb' 0 8 = g.wdata.extractLsb' 0 8 := by
      simpa [BitVec.extractLsb'_extractLsb'_of_le] using congrArg (BitVec.extractLsb' 0 8) hv
    rw [decode_cpuinit hc, decode_cpuinit (h.symm.trans hc), hvariant, hbit 8 (by decide), hbit 9 (by decide), hok]
  · rintro hc hfound (hnone | ⟨hlen, himg⟩)
    · rw [decode_seed_none hc hnone, decode_seed_none (h.symm.trans hc) (hfound.symm.trans hnone)]
    · rw [decode_seed hc, decode_seed (h.symm.trans hc), hfound, hlen, himg]
  · intro hc
    rw [decode_start hc, decode_start (h.symm.trans hc)]

/-- Settles O4: the six words are evaluated. -/
theorem sampleWordsDecode : Obligations.SampleWordsDecode := by
  unfold Obligations.SampleWordsDecode
  decide

end Sys2Proof
end

section
/-! SUPPORT. Values and their bytes (20_memory R52) and the adapter (43_mmio_dispatch R179, R180): `assemble` and
`split` as sums and bits, their two inverse laws, and what a width cuts. -/

namespace Sys2Proof.Machine

/-- A byte's radix and a bit's: the powers in which `truncTo` and the obligations are put. -/
theorem pow_256 (n : Nat) : 256 ^ n = 2 ^ (8 * n) := by
  rw [pow_mul, show 2 ^ 8 = 256 from rfl]

theorem toNat_truncTo (w : Width) (v : Data) : (truncTo w v).toNat = v.toNat % 2 ^ (8 * w.bytes) := by
  have hlt : v.toNat % 256 ^ w.bytes < 256 ^ w.bytes := Nat.mod_lt _ (by positivity)
  rw [truncTo, BitVec.toNat_ofNat, Nat.mod_eq_of_lt (hlt.trans_le (width_pow_le w)), pow_256]

theorem truncTo_lt (w : Width) (v : Data) : (truncTo w v).toNat < 2 ^ (8 * w.bytes) := by
  rw [toNat_truncTo]
  exact Nat.mod_lt _ (by positivity)

theorem truncTo_of_lt {w : Width} {v : Data} (h : v.toNat < 2 ^ (8 * w.bytes)) : truncTo w v = v :=
  BitVec.eq_of_toNat_eq (by rw [toNat_truncTo, Nat.mod_eq_of_lt h])

theorem truncTo_eq_ofNat (w : Width) (v : Data) : truncTo w v = BitVec.ofNat 64 (v.toNat % 2 ^ (8 * w.bytes)) := by
  rw [truncTo, pow_256]

/-! ### `assemble` -/

/-- The bytes in the order of their weight, least first. -/
def leastFirst (e : ByteOrder) (bs : List Byte) : List Byte :=
  match e with
  | .little => bs
  | .big => bs.reverse

theorem leastFirst_length (e : ByteOrder) (bs : List Byte) : (leastFirst e bs).length = bs.length := by
  cases e <;> simp [leastFirst]

theorem leastFirst_leastFirst (e : ByteOrder) (bs : List Byte) : leastFirst e (leastFirst e bs) = bs := by
  cases e <;> simp [leastFirst]

theorem assemble_eq (e : ByteOrder) (bs : List Byte) :
    assemble e bs = BitVec.ofNat 64 (bytesToNat (leastFirst e bs)) := by
  cases e <;> rfl

theorem split_eq (e : ByteOrder) (v : Data) (w : Width) : split e v w = leastFirst e (natToBytes w.bytes v.toNat) := by
  cases e <;> rfl

/-- Up to eight bytes fit the data path, so `assemble` loses nothing. -/
theorem toNat_assemble (e : ByteOrder) {bs : List Byte} (h : bs.length ≤ 8) :
    (assemble e bs).toNat = bytesToNat (leastFirst e bs) := by
  have hlt := bytesToNat_lt (leastFirst e bs)
  have hle : 256 ^ (leastFirst e bs).length ≤ 256 ^ 8 :=
    Nat.pow_le_pow_right (by decide) (by rwa [leastFirst_length])
  rw [assemble_eq, BitVec.toNat_ofNat, Nat.mod_eq_of_lt (by omega)]

theorem assemble_lt (e : ByteOrder) {bs : List Byte} (h : bs.length ≤ 8) :
    (assemble e bs).toNat < 2 ^ (8 * bs.length) := by
  have hlt := bytesToNat_lt (leastFirst e bs)
  rwa [← toNat_assemble e h, leastFirst_length, pow_256] at hlt

theorem bytesToNat_eq_sum (bs : List Byte) :
    bytesToNat bs = ∑ i ∈ Finset.range bs.length, (bs.getD i 0).toNat * 2 ^ (8 * i) := by
  induction bs with
  | nil => rfl
  | cons b bs ih =>
    rw [bytesToNat, List.length_cons, Finset.sum_range_succ', ih, Finset.mul_sum, Nat.add_comm]
    congr 1
    · refine Finset.sum_congr rfl fun i _ => ?_
      rw [List.getD_cons_succ, Nat.mul_add, pow_add]
      ring
    · simp

/-- Settles O6: the little-endian sum by induction, the big-endian one its reflection. -/
theorem assembleIsThePositionalSum : Obligations.AssembleIsThePositionalSum := by
  intro bs h
  rw [toNat_assemble .big h, toNat_assemble .little h]
  refine ⟨?_, bytesToNat_eq_sum bs⟩
  simp only [leastFirst]
  rw [bytesToNat_eq_sum, List.length_reverse, ← Finset.sum_range_reflect]
  refine Finset.sum_congr rfl fun i hi => ?_
  have hi : i < bs.length := Finset.mem_range.mp hi
  have hrev : bs.reverse.getD (bs.length - 1 - i) 0 = bs.getD i 0 := by
    rw [List.getD_eq_getElem?_getD, List.getElem?_reverse (by omega), List.getD_eq_getElem?_getD]
    congr 2
    omega
  rw [hrev]

/-! ### `split` -/

theorem getElem?_natToBytes {n i : Nat} (v : Nat) (h : i < n) :
    (natToBytes n v)[i]? = some (BitVec.ofNat 8 (v / 256 ^ i)) := by
  induction n generalizing v i with
  | zero => omega
  | succ n ih =>
    cases i with
    | zero => simp [natToBytes]
    | succ i => rw [natToBytes, List.getElem?_cons_succ, ih _ (by omega), Nat.div_div_eq_div_mul, pow_succ']

theorem extractLsb'_byte (v : Data) (i : Nat) : v.extractLsb' (8 * i) 8 = BitVec.ofNat 8 (v.toNat / 256 ^ i) := by
  rw [BitVec.extractLsb', Nat.shiftRight_eq_div_pow, pow_256]

/-- Settles O7: byte `i` of the little-endian split is at bit `8 i`, and the big-endian split is its reverse. -/
theorem splitTakesTheNamedBits : Obligations.SplitTakesTheNamedBits := by
  intro v w i hi
  constructor
  · rw [split, List.getElem?_reverse (by rwa [natToBytes_length]), natToBytes_length,
      getElem?_natToBytes _ (by omega), extractLsb'_byte]
  · rw [split, getElem?_natToBytes _ hi, extractLsb'_byte]

/-! ### The inverse laws -/

theorem split_assemble (e : ByteOrder) {bs : List Byte} {w : Width} (h : bs.length = w.bytes) :
    split e (assemble e bs) w = bs := by
  have hlen : w.bytes = (leastFirst e bs).length := by rw [leastFirst_length, h]
  rw [split_eq, toNat_assemble e (h ▸ width_bytes_le w), hlen, natToBytes_bytesToNat, leastFirst_leastFirst]

/-- Splitting and assembling keeps the bytes of the width. -/
theorem assemble_split (e : ByteOrder) (v : Data) (w : Width) : assemble e (split e v w) = truncTo w v := by
  rw [assemble_eq, split_eq, leastFirst_leastFirst, bytesToNat_natToBytes, truncTo]

/-- Settles O8: from the two general laws `split_assemble` and `assemble_split`. -/
theorem splitAndAssembleAreInverse : Obligations.SplitAndAssembleAreInverse := fun e w =>
  ⟨fun _ h => split_assemble e h, fun v h => (assemble_split e v w).trans (truncTo_of_lt h)⟩

theorem split_truncTo (e : ByteOrder) (v : Data) (w : Width) : split e (truncTo w v) w = split e v w := by
  rw [← assemble_split e, split_assemble e (split_length e v w)]

/-! ### The adapter -/

theorem adapt_lt (w : Width) (x : Data) (c b : ByteOrder) : (adapt w x c b).toNat < 2 ^ (8 * w.bytes) := by
  have hlen := split_length c x w
  have hlt := assemble_lt b (hlen ▸ width_bytes_le w)
  rwa [hlen] at hlt

/-- A swap is a swap from either side. -/
theorem adapt_comm (w : Width) (x : Data) (c b : ByteOrder) : adapt w x c b = adapt w x b c := by
  cases c <;> cases b <;> simp [adapt, assemble_eq, split_eq, leastFirst]

theorem adapt_self (w : Width) (x : Data) (b : ByteOrder) : adapt w x b b = truncTo w x := assemble_split b x w

theorem adapt_of_ne (w : Width) (x : Data) {c b : ByteOrder} (h : c ≠ b) : adapt w x c b = bswap x w := by
  cases c <;> cases b
  case little.big => exact adapt_comm w x .little .big
  case big.little => rfl
  all_goals exact absurd rfl h

/-- What the adapter does on the way in it undoes on the way out (43_mmio_dispatch R180 (a)). -/
theorem adapt_adapt (w : Width) (x : Data) (c b : ByteOrder) : adapt w (adapt w x c b) c b = truncTo w x := by
  rw [adapt_comm w _ c b]
  unfold adapt
  rw [split_assemble b (split_length c x w), assemble_split]

/-- The one byte of a byte access is its own reverse. -/
theorem adapt_w8 (x : Data) (c b : ByteOrder) : adapt .w8 x c b = truncTo .w8 x := by
  rw [← adapt_self .w8 x b]
  cases c <;> cases b <;> rfl

/-- Settles O9: `adapt` by whether the orders agree, and its laws on values that fit the width. -/
theorem adapterIsAnInvolutiveByteSwap : Obligations.AdapterIsAnInvolutiveByteSwap := by
  intro w x c b hx
  have htrunc : truncTo w x = x := truncTo_of_lt hx
  refine ⟨?_, (adapt_adapt w x c b).trans htrunc, ?_⟩
  · split
    next h => rw [h, adapt_self, htrunc]
    next h => exact adapt_of_ne w x h
  · rintro rfl
    exact (adapt_w8 x c b).trans htrunc

end Sys2Proof.Machine
end

section
/-! SUPPORT. Spans and the region select (40_composition R111, 41_resolve R131 to R136), and the probe RESOLVE (R137). -/

namespace Sys2Proof.Machine

variable {rt : List Region} {a : Addr} {w : Width}

/-- Settles O10: the byte two intersecting spans share is the higher of the two bases. -/
theorem spansIntersectExactlyWhenTheyShareAByte : Obligations.SpansIntersectExactlyWhenTheyShareAByte := by
  intro e f
  refine ⟨?_, fun hempty => ?_⟩
  · rw [intersects_iff]
    constructor
    · intro h
      exact ⟨max e.base.toNat f.base.toNat, by omega⟩
    · rintro ⟨x, _, _⟩
      omega
  · rw [← Bool.not_eq_true, intersects_iff, Region.limit, hempty]
    simp

/-- Settles O11: `resolve` by `resolve_of_contains`; a second entry that contained the access would stand before or
after the first. -/
theorem atMostOneEntryContainsAnAccess : Obligations.AtMostOneEntryContainsAnAccess := by
  intro rt a w dir i r hd hi hc
  refine ⟨resolve_of_contains hd hi hc dir, fun j f hj hf => ?_⟩
  rcases Nat.lt_trichotomy j i with hlt | heq | hgt
  · exact absurd hc (not_contains_of_lt hd hlt hj hi hf)
  · exact heq
  · exact absurd hf (not_contains_of_lt hd hgt hi hj hc)

theorem resolve_unmapped_of_forall (h : ∀ r ∈ rt, contains r a w = false) (dir : Dir) :
    resolve rt a w dir = .unmapped :=
  resolve_eq_unmapped_iff.mpr fun r hr => by simp [h r hr]

/-- Two different entries of a disjoint table, in whichever order they stand. -/
theorem not_intersects_of_mem (hd : DisjointSpans rt) {e f : Region} (he : e ∈ rt) (hf : f ∈ rt) (hne : e ≠ f) :
    ¬intersects e f = true := by
  have : Std.Symm fun e f : Region => intersects e f = false := ⟨fun e f h => (intersects_comm f e).trans h⟩
  simp [hd.forall he hf hne]

/-- Settles O13: an entry that contained the access would share a byte with the Region whose end it crosses. -/
theorem straddlingAccessIsUnmapped : Obligations.StraddlingAccessIsUnmapped := by
  intro rt r a w dir hd hr hcross
  refine resolve_eq_unmapped_iff.mpr fun f hf hc => ?_
  rw [contains_iff] at hc
  by_cases hrf : r = f
  · subst hrf
    omega
  · refine not_intersects_of_mem hd hr hf hrf ((intersects_iff r f).mpr ?_)
    omega

/-- Settles O14: `resolve` drops its direction, and answers the entry that contains the access. -/
theorem resolveDoesNotDependOnDirection : Obligations.ResolveDoesNotDependOnDirection := by
  intro rt a w dir dir'
  exact ⟨rfl, fun i r hd hi _ hc => resolve_of_contains hd hi hc .write⟩

/-- Settles O15: the end of the access is compared as a natural number, past every Region's end. -/
theorem accessPastTheTopNeverWraps : Obligations.AccessPastTheTopNeverWraps := by
  intro rt a w dir htop hpast
  refine resolve_eq_unmapped_iff.mpr fun r hr hc => ?_
  have hlimit := htop r hr
  rw [contains_iff] at hc
  omega

theorem contains_w8_iff (r : Region) (a : Addr) :
    contains r a .w8 = true ↔ r.base.toNat ≤ a.toNat ∧ a.toNat < r.limit := contains_iff r a .w8

/-- Settles O16: no Region's span holds the byte exactly when one of the gaps between them does. -/
theorem socUnmappedRangesAreThoseListed : Obligations.SocUnmappedRangesAreThoseListed := by
  intro a dir
  have htop : a.toNat < 2 ^ 32 := a.isLt
  simp only [resolve_eq_unmapped_iff, contains_w8_iff, socTable, socRegions, List.filterMap_cons, List.filterMap_nil,
    List.forall_mem_cons, List.not_mem_nil, false_imp_iff, implies_true, and_true, Region.limit, loadAddr, romSize,
    BitVec.toNat_ofNat, Nat.reducePow, Nat.reduceMod, Nat.reduceAdd]
  omega

/-- In a phase that accepts it RESOLVE answers and changes nothing else (41_resolve R137). -/
theorem exec_resolve {s : State} (hp : s.phase = .build ∨ s.phase = .loaded ∨ s.phase = .run) (dir : Dir) (w : Width)
    (a : Addr) : exec (.resolve dir w a) s = .next (s.respond (resolveResponse (resolve s.rt a w dir))) :=
  if_pos hp

/-- The in-Region offset of a contained access, on the 32-bit port. -/
theorem ofNat_offset {r : Region} (hc : contains r a w = true) :
    BitVec.ofNat 32 (a.toNat - r.base.toNat) = a - r.base := by
  have hbase := ((contains_iff r a w).mp hc).1
  bv_omega

/-- Settles O17: the answer of `resolve` in a disjoint table, its offset read on the 32-bit port. -/
theorem resolveReportsTheOwningRegion : Obligations.ResolveReportsTheOwningRegion := by
  intro s dir w a i r hp hd hi hc
  rw [exec_resolve hp, resolve_of_contains hd hi hc, resolveResponse, ofNat_offset hc]
  rfl

/-- Settles O18: `resolve` answers unmapped where nothing contains the access, and RESOLVE reads no strap. -/
theorem resolveReportsUnmapped : Obligations.ResolveReportsUnmapped := by
  intro s dir w a hp hnone
  rw [exec_resolve hp, resolve_unmapped_of_forall hnone]
  rfl

end Sys2Proof.Machine
end

section
/-! SUPPORT. What the composer's commands answer in each of their cases (40_composition R111 to R117), and the
obligations about them. -/

namespace Sys2Proof.Machine

variable {s : State}

/-! ### The search of `as_map` (40_composition R111) -/

theorem asMap_of_disjoint {rt : List Region} {e : Region} (h : ∀ f ∈ rt, intersects e f = false) :
    asMap rt e = .ok (rt ++ [e]) := by
  cases hm : asMap rt e with
  | ok rt' => rw [(asMap_ok hm).1]
  | error j =>
    obtain ⟨f, hf, hi⟩ := asMap_error hm
    rw [h f (List.mem_of_getElem? hf)] at hi
    cases hi

theorem asMap_of_intersects {rt : List Region} {e : Region} (h : ∃ f ∈ rt, intersects e f = true) :
    ∃ j, asMap rt e = .error j := by
  cases hm : asMap rt e with
  | error j => exact ⟨j, rfl⟩
  | ok rt' =>
    obtain ⟨f, hf, hi⟩ := h
    rw [(asMap_ok hm).2 f hf] at hi
    cases hi

/-- The search answers the lowest index that intersects, counted from `k`. -/
theorem overlapFrom_of_first {rt : List Region} {e f : Region} {k j : Nat} (hj : rt[j]? = some f)
    (hi : intersects e f = true)
    (hfirst : ∀ (m : Nat) (g : Region), m < j → rt[m]? = some g → intersects e g = false) :
    overlapFrom k e rt = some (k + j) := by
  induction rt generalizing k j with
  | nil => simp at hj
  | cons g rt ih =>
    cases j with
    | zero =>
      obtain rfl : g = f := by simpa using hj
      simp [overlapFrom, hi]
    | succ j =>
      have hg : ¬intersects e g = true := by simp [hfirst 0 g (by omega) rfl]
      rw [overlapFrom, if_neg hg, show k + (j + 1) = k + 1 + j by omega]
      exact ih (by simpa using hj) fun m g' hm hg' => hfirst (m + 1) g' (by omega) (by simpa using hg')

theorem asMap_of_first {rt : List Region} {e f : Region} {j : Nat} (hj : rt[j]? = some f)
    (hi : intersects e f = true)
    (hfirst : ∀ (m : Nat) (g : Region), m < j → rt[m]? = some g → intersects e g = false) :
    asMap rt e = .error j := by
  rw [asMap, overlapFrom_of_first hj hi hfirst, Nat.zero_add]

/-! ### MAP in the order of its tests (40_composition R112, 60_exceptions R210) -/

section map

variable {handlers : HandlerId → Option Handler} {e : Region} (hp : s.phase = .build)
include hp

theorem mapWith_unbound {r : Refusal} (hbound : unboundRefusal handlers e.kind = some r) :
    mapWith handlers e s = .refused r := by
  simp only [mapWith, if_pos hp, hbound]

theorem mapWith_overlap (hbound : unboundRefusal handlers e.kind = none) {j : Nat} (hm : asMap s.rt e = .error j) :
    mapWith handlers e s =
      .next (startupFail { code := .overlap, addr := e.base, size := e.size, region := some j } s) := by
  simp only [mapWith, if_pos hp, hbound, hm]

theorem mapWith_unshareable (hbound : unboundRefusal handlers e.kind = none) (hd : ∀ f ∈ s.rt, intersects e f = false)
    {r : Refusal} (hshare : sharingRefusal handlers s.rt e.kind = some r) : mapWith handlers e s = .refused r := by
  simp only [mapWith, if_pos hp, hbound, asMap_of_disjoint hd, hshare]

theorem mapWith_accept (hbound : unboundRefusal handlers e.kind = none) (hd : ∀ f ∈ s.rt, intersects e f = false)
    (hshare : sharingRefusal handlers s.rt e.kind = none) :
    mapWith handlers e s = .next ((appendRegion (s.rt ++ [e]) s).respond {}) := by
  simp only [mapWith, if_pos hp, hbound, asMap_of_disjoint hd, hshare]

end map

/-- Settles O19: the hypothesis on the handler excludes both of MAP's refusals, the one on spans the overlap. -/
theorem mapAppendsADisjointRegion : Obligations.MapAppendsADisjointRegion := by
  intro s name base size kind hp hmmio hd
  have hbound : unboundRefusal boundHandler kind = none := by
    refine unboundRefusal_none.mpr fun be id hk => ?_
    obtain ⟨h, hid, _⟩ := hmmio be id hk
    simp [hid]
  have hshare : sharingRefusal boundHandler s.rt kind = none := by
    refine sharingRefusal_none.mpr fun be id h hk hid => ?_
    obtain ⟨h', hid', hfree⟩ := hmmio be id hk
    cases hid.symm.trans hid'
    exact hfree
  exact mapWith_accept hp hbound hd hshare

/-- An empty store of a ROM reads as zero (10_state R36). -/
theorem byteAt_rom_of_store_nil {i : Nat} (h : s.store i = []) (o : Nat) : s.byteAt i .rom o = 0 := by
  rw [State.byteAt, h]
  rfl

/-- Settles O20: of what MAP can answer only the append leaves BUILD, and its new store lists nothing. -/
theorem mappedRomReadsAsZero : Obligations.MappedRomReadsAsZero := by
  intro s t name base size hlen h hp
  have hmap : mapWith boundHandler ⟨name, base, size, .rom⟩ s = .next t := h
  obtain ⟨_, _, ⟨j, _, rfl⟩ | ⟨_, _, rfl⟩⟩ := mapWith_next hmap
  · cases hp
  · refine ⟨by simp, byteAt_rom_of_store_nil ?_⟩
    simp [State.store, ← hlen]

/-- Settles O21: the search of `as_map` stops at the first entry that intersects. -/
theorem mapOverlapFailsTheMachine : Obligations.MapOverlapFailsTheMachine := by
  intro s name base size kind j f hp hmmio hj hi hfirst
  exact mapWith_overlap hp (unboundRefusal_none.mpr hmmio) (asMap_of_first hj hi hfirst)

/-- Settles O22: each clause stops at one of MAP's tests, in their order. -/
theorem mapRefusesAnUnusableHandler : Obligations.MapRefusesAnUnusableHandler := by
  intro hs s e be id hp hk
  refine ⟨fun hnone => mapWith_unbound hp (by simp [hk, unboundRefusal, hnone]), ?_⟩
  intro h f be' hid hstate hf hkf
  have hbound : unboundRefusal hs e.kind = none := by simp [hk, unboundRefusal, hid]
  have hused : handlerInUse s.rt id = true := handlerInUse_iff.mpr ⟨f, hf, be', hkf⟩
  constructor
  · intro hd
    exact mapWith_unshareable hp hbound hd (by simp [hk, sharingRefusal, hid, hstate, hused])
  · intro hover
    obtain ⟨j, hj⟩ := asMap_of_intersects hover
    exact ⟨_, mapWith_overlap hp hbound hj, rfl, rfl⟩

/-! ### CPUINIT (40_composition R114) -/

/-- Settles O23: in these phases and without CPU_READY the command reaches its test of `cpu_ok`. -/
theorem cpuinitLatchesTheParameters : Obligations.CpuinitLatchesTheParameters := by
  intro s variant be vec hp hready
  have hnot : ¬s.cpuReady = true := by simp [hready]
  simp only [exec, execCpuinit, if_pos hp, if_neg hnot, if_true]
  rfl

/-- Settles O24: as for `cpu_ok` = 1, by the other branch of the test. -/
theorem cpuinitFailureEndsTheMachine : Obligations.CpuinitFailureEndsTheMachine := by
  intro s variant be vec hp hready
  have hnot : ¬s.cpuReady = true := by simp [hready]
  simp only [exec, execCpuinit, if_pos hp, if_neg hnot, Bool.false_eq_true, if_false]
  rfl

/-! ### SEED's target and its two errors (40_composition R115) -/

theorem seedTarget_eq_none {rt : List Region} (h : ∀ r ∈ rt, r.kind ≠ .rom ∨ r.base ≠ loadAddr) :
    seedTarget rt = none := by
  cases ht : seedTarget rt with
  | none => rfl
  | some p =>
    obtain ⟨hi, hrom, hbase⟩ := seedTarget_some (i := p.1) (r := p.2) ht
    exact absurd hbase ((h p.2 (List.mem_of_getElem? hi)).resolve_left (not_not_intro hrom))

/-- The search answers the lowest ROM at LOAD_ADDR, its index counted from `k`. -/
theorem seedTargetFrom_of_first {rt : List Region} {r : Region} {k i : Nat} (hi : rt[i]? = some r)
    (hr : r.kind = .rom ∧ r.base = loadAddr)
    (hfirst : ∀ (m : Nat) (g : Region), m < i → rt[m]? = some g → g.kind ≠ .rom ∨ g.base ≠ loadAddr) :
    seedTargetFrom k rt = some (k + i, r) := by
  induction rt generalizing k i with
  | nil => simp at hi
  | cons g rt ih =>
    cases i with
    | zero =>
      obtain rfl : g = r := by simpa using hi
      rw [seedTargetFrom, if_pos hr, Nat.add_zero]
    | succ i =>
      have hg : ¬(g.kind = .rom ∧ g.base = loadAddr) := not_and_or.mpr (hfirst 0 g (by omega) rfl)
      rw [seedTargetFrom, if_neg hg, show k + (i + 1) = k + 1 + i by omega]
      exact ih (by simpa using hi) fun m g' hm hg' => hfirst (m + 1) g' (by omega) (by simpa using hg')

theorem seedTarget_of_first {rt : List Region} {r : Region} {i : Nat} (hi : rt[i]? = some r) (hrom : r.kind = .rom)
    (hbase : r.base = loadAddr)
    (hfirst : ∀ (m : Nat) (g : Region), m < i → rt[m]? = some g → g.kind ≠ .rom ∨ g.base ≠ loadAddr) :
    seedTarget rt = some (i, r) := by
  rw [seedTarget, seedTargetFrom_of_first hi ⟨hrom, hbase⟩ hfirst, Nat.zero_add]

/-- Some ROM at LOAD_ADDR is enough for a target: the first one is it. -/
theorem seedTargetFrom_isSome {rt : List Region} {r : Region} (hr : r ∈ rt) (hrom : r.kind = .rom)
    (hbase : r.base = loadAddr) (k : Nat) : (seedTargetFrom k rt).isSome = true := by
  induction rt generalizing k with
  | nil => cases hr
  | cons g rt ih =>
    rw [seedTargetFrom]
    split
    next => rfl
    next hg =>
      refine ih ((List.mem_cons.mp hr).resolve_left ?_) (k + 1)
      rintro rfl
      exact hg ⟨hrom, hbase⟩

theorem exec_seed_none {p : Nat × Region} (hp : s.phase = .build) (ht : seedTarget s.rt = some p) :
    exec (.seed none) s = .next (startupFail { code := .imageNotFound } s) := by
  simp only [exec, execSeed, if_pos hp, ht]

theorem exec_seed_some {i : Nat} {r : Region} (hp : s.phase = .build) (ht : seedTarget s.rt = some (i, r))
    (image : List Byte) : exec (.seed (some image)) s = .next (seedImage i r image s) := by
  simp only [exec, execSeed, if_pos hp, ht]

/-- Settles O26: a ROM at LOAD_ADDR gives the search a target, which the missing image leaves unused. -/
theorem seedNotFoundFailsTheMachine : Obligations.SeedNotFoundFailsTheMachine := by
  intro s r hp hr hrom hbase
  obtain ⟨p, ht⟩ := Option.isSome_iff_exists.mp (seedTargetFrom_isSome hr hrom hbase 0)
  exact exec_seed_none hp ht

/-- Settles O27: the target is the first ROM at LOAD_ADDR, and the size test comes before the first byte. -/
theorem seedTooLargeFailsTheMachine : Obligations.SeedTooLargeFailsTheMachine := by
  intro s image i r hp hi hrom hbase hfirst hlarge
  rw [exec_seed_some hp (seedTarget_of_first hi hrom hbase hfirst), seedImage, if_pos hlarge]
  rfl

/-! ### A store after bytes were written at ascending offsets -/

/-- What every offset of a store holds after a run of bytes was written (40_composition R115, 42_access R150). -/
theorem byteAt_setStore_pokeAll {i : Nat} (hi : i < s.stores.length) (hsorted : Assoc.Sorted (s.store i))
    (k : RegionKind) (o : Nat) (bs : List Byte) (j : Nat) :
    (s.setStore i (Memory.pokeAll k (s.store i) o bs)).byteAt i k j =
      if o ≤ j ∧ j < o + bs.length then bs.getD (j - o) 0 else s.byteAt i k j := by
  rw [State.byteAt, store_setStore_self s _ hi, setStore_epoch]
  split
  next hin =>
    obtain ⟨d, rfl⟩ : ∃ d, j = o + d := ⟨j - o, by omega⟩
    have hlt : d < bs.length := by omega
    rw [byte_pokeAll_inside bs _ o d hsorted hlt, Nat.add_sub_cancel_left, List.getD_eq_getElem _ _ hlt]
  next hout =>
    rw [byte_pokeAll_outside bs _ o (by omega), State.byteAt]

theorem store_lt (hinv : Inv s) {i : Nat} {r : Region} (hi : s.rt[i]? = some r) : i < s.stores.length :=
  hinv.stores_length ▸ (List.getElem?_eq_some_iff.mp hi).1

/-- Settles O25: the target's store is the old one with the image written from offset 0. -/
theorem seedCopiesTheImage : Obligations.SeedCopiesTheImage := by
  intro s image i r hinv hp hi hrom hbase hfirst hfits
  refine ⟨_, exec_seed_some hp (seedTarget_of_first hi hrom hbase hfirst) image, ?_⟩
  rw [seedImage, if_neg (by omega), hrom]
  refine ⟨rfl, fun j hj => store_setStore_ne s _ hj, fun o => ?_⟩
  refine (byteAt_setStore_pokeAll (store_lt hinv hi) (hinv.stores_wf i r hi).1 .rom 0 image o).trans ?_
  simp

/-! ### START, and what the composer's commands refuse -/

/-- Settles O28: both of START's tests pass. -/
theorem startEntersRun : Obligations.StartEntersRun := by
  intro s hp hready
  simp only [exec, execStart, if_pos hp, hready]
  rfl

/-- Settles O29: each command stops at the test its clause makes fail. -/
theorem composerCommandsRefuseOutOfTurn : Obligations.ComposerCommandsRefuseOutOfTurn := by
  intro s variant be vec ok image
  refine ⟨fun hp hready => ?_, fun hp hnone => ?_, fun hp hready => ?_⟩
  · simp only [exec, execCpuinit, if_pos hp, hready, if_true]
  · simp only [exec, execSeed, if_pos hp, seedTarget_eq_none hnone]
  · simp [exec, execStart, hp, hready]

end Sys2Proof.Machine
end

section
/-! SUPPORT. READn and WRITEn as the one access pipeline, and what it does with an unmapped access and with a storage
Region (42_access R145 to R160); the obligations about them. -/

namespace Sys2Proof.Machine

variable {s : State} {w : Width} {a : Addr}

/-! ### The eight commands as one operation -/

theorem exec_readCommand (w : Width) (a : Addr) (s : State) :
    exec (readCommand w a) s = accessWith boundHandler .read w a 0 s := by
  cases w <;> rfl

/-- A write hands the pipeline its value cut to the width (30_encoding R88). -/
theorem exec_writeCommand (w : Width) (a : Addr) (v : Data) (s : State) :
    exec (writeCommand w a v) s = accessWith boundHandler .write w a (truncTo w v) s := by
  have hcut {n : Nat} (hn : n = 8 * w.bytes) : (v.setWidth n).setWidth 64 = truncTo w v := by
    have hlt : v.toNat % 2 ^ n < 2 ^ 64 := (Nat.mod_le _ _).trans_lt v.isLt
    refine BitVec.eq_of_toNat_eq ?_
    rw [BitVec.toNat_setWidth, BitVec.toNat_setWidth, toNat_truncTo, Nat.mod_eq_of_lt hlt, hn]
  cases w with
  | w8 => exact congrArg (accessWith boundHandler .write .w8 a · s) (hcut rfl)
  | w16 => exact congrArg (accessWith boundHandler .write .w16 a · s) (hcut rfl)
  | w32 => exact congrArg (accessWith boundHandler .write .w32 a · s) (hcut rfl)
  | w64 => exact congrArg (accessWith boundHandler .write .w64 a · s) (truncTo_of_lt v.isLt).symm

/-! ### The pipeline by what `resolve` answers -/

theorem accessWith_refused (handlers : HandlerId → Option Handler) (dir : Dir) (w : Width) (a : Addr) (v : Data)
    (hp : s.phase ≠ .run) : accessWith handlers dir w a v s = .refused (.notAccepted s.phase) :=
  if_neg hp

theorem accessWith_unmapped (handlers : HandlerId → Option Handler) (dir : Dir) (v : Data) (hp : s.phase = .run)
    (hnone : ∀ r ∈ s.rt, contains r a w = false) :
    accessWith handlers dir w a v s = .next (unmappedAccess dir w a s) := by
  simp only [accessWith, if_pos hp, resolve_unmapped_of_forall hnone]

theorem accessWith_storage (handlers : HandlerId → Option Handler) (dir : Dir) (v : Data) {i : Nat} {r : Region}
    (hp : s.phase = .run) (hd : DisjointSpans s.rt) (hi : s.rt[i]? = some r) (hc : contains r a w = true)
    (hk : r.kind = .rom ∨ r.kind = .ram) :
    accessWith handlers dir w a v s = .next (storageAccess dir i r (a.toNat - r.base.toNat) w v a s) := by
  rcases hk with hk | hk <;> simp only [accessWith, if_pos hp, resolve_of_contains hd hi hc, hk]

/-- The in-Region offset of a contained access leaves room for its width. -/
theorem offset_fits {r : Region} (hc : contains r a w = true) :
    a.toNat - r.base.toNat + w.bytes ≤ r.size.toNat := by
  rw [contains_iff, Region.limit] at hc
  omega

/-- Settles O44: every one of the eight is the pipeline, which tests the phase first. -/
theorem accessesAreRefusedOutsideRun : Obligations.AccessesAreRefusedOutsideRun := by
  intro s w a v hp
  rw [exec_readCommand, exec_writeCommand]
  exact ⟨accessWith_refused _ _ _ _ _ hp, accessWith_refused _ _ _ _ _ hp⟩

/-! ### The unmapped policy (42_access R147) -/

theorem unmappedAccess_abort (dir : Dir) (w : Width) (a : Addr) (h : s.cfg.unmappedPolicy = .abort) :
    unmappedAccess dir w a s = runtimeAbort (accessCause .unmappedAccess a w dir none) s := by
  simp only [unmappedAccess, h]

theorem unmappedAccess_read_degrade (w : Width) (a : Addr) (h : s.cfg.unmappedPolicy = .degrade) :
    unmappedAccess .read w a s = s.respond { rdata := truncTo w s.cfg.unmappedFill } := by
  simp only [unmappedAccess, h]

theorem unmappedAccess_write_degrade (w : Width) (a : Addr) (h : s.cfg.unmappedPolicy = .degrade) :
    unmappedAccess .write w a s = s.respond {} := by
  simp only [unmappedAccess, h]

/-- Settles O34: `unmappedAccess` under DEGRADE, by direction. -/
theorem unmappedAccessDegrades : Obligations.UnmappedAccessDegrades := by
  intro s w a v hp hnone hpol
  rw [exec_readCommand, exec_writeCommand, accessWith_unmapped _ _ _ hp hnone, accessWith_unmapped _ _ _ hp hnone,
    unmappedAccess_read_degrade w a hpol, unmappedAccess_write_degrade w a hpol, truncTo_eq_ofNat]
  exact ⟨rfl, rfl⟩

/-- Settles O35: `unmappedAccess` under ABORT, by direction. -/
theorem unmappedAccessAborts : Obligations.UnmappedAccessAborts := by
  intro s w a v hp hnone hpol
  rw [exec_readCommand, exec_writeCommand, accessWith_unmapped _ _ _ hp hnone, accessWith_unmapped _ _ _ hp hnone,
    unmappedAccess_abort .read w a hpol, unmappedAccess_abort .write w a hpol]
  exact ⟨rfl, rfl⟩

/-! ### Storage Regions (42_access R149 to R152) -/

section storage

variable {i : Nat} {r : Region} (hp : s.phase = .run) (hd : DisjointSpans s.rt) (hi : s.rt[i]? = some r)
  (hc : contains r a w = true)
include hp hd hi hc

theorem exec_read_storage (hk : r.kind = .rom ∨ r.kind = .ram) :
    exec (readCommand w a) s =
      .next (s.respond { rdata := assemble s.cpuBe (s.bytesAt i r.kind (a.toNat - r.base.toNat) w.bytes) }) := by
  rw [exec_readCommand, accessWith_storage _ _ _ hp hd hi hc hk, storageAccess, regionRead_fits a s (offset_fits hc)]

theorem exec_write_ram (hk : r.kind = .ram) (v : Data) :
    exec (writeCommand w a v) s =
      .next ((s.setStore i (Memory.pokeAll .ram (s.store i) (a.toNat - r.base.toNat)
        (split s.cpuBe v w))).respond {}) := by
  rw [exec_writeCommand, accessWith_storage _ _ _ hp hd hi hc (.inr hk), storageAccess,
    regionWrite_fits _ a s (offset_fits hc), if_neg (by simp [hk]), split_truncTo, hk]

theorem exec_write_rom (hk : r.kind = .rom) (v : Data) :
    exec (writeCommand w a v) s = .next (invariantViolation .readOnlyViolation a w .write i s) := by
  rw [exec_writeCommand, accessWith_storage _ _ _ hp hd hi hc (.inl hk), storageAccess,
    regionWrite_fits _ a s (offset_fits hc), if_pos hk]

end storage

/-- Settles O30: the read fits its Region, so the bounds check does not fire. -/
theorem readOfStorageReturnsItsBytes : Obligations.ReadOfStorageReturnsItsBytes :=
  fun _ _ _ _ _ hp hd hi hc hk => exec_read_storage hp hd hi hc hk

/-- Settles O31: the Region's store is the old one with the value's bytes written from the offset. -/
theorem writeOfRamChangesExactlyItsBytes : Obligations.WriteOfRamChangesExactlyItsBytes := by
  intro s w a v i r hinv hp hi hc hk
  refine ⟨_, exec_write_ram hp hinv.disjoint hi hc hk v, rfl, fun j hj => store_setStore_ne s _ hj, fun o => ?_⟩
  have hbyte := byteAt_setStore_pokeAll (store_lt hinv hi) (hinv.stores_wf i r hi).1 .ram
    (a.toNat - r.base.toNat) (split s.cpuBe v w) o
  rwa [split_length] at hbyte

/-- A run of a list's elements, read one by one. -/
theorem map_getD_range {bs : List Byte} {d n : Nat} (h : d + n ≤ bs.length) :
    (List.range n).map (fun j => bs.getD (d + j) 0) = (bs.drop d).take n := by
  refine List.ext_getElem (by simp; omega) fun j hj _ => ?_
  have hlt : d + j < bs.length := by simp at hj; omega
  simp [hlt]

/-- A read inside the bytes just written sees them, whatever its width (20_memory R56). -/
theorem bytesAt_setStore_pokeAll {i : Nat} (hi : i < s.stores.length) (hsorted : Assoc.Sorted (s.store i))
    (k : RegionKind) {o d n : Nat} {bs : List Byte} (h : d + n ≤ bs.length) :
    (s.setStore i (Memory.pokeAll k (s.store i) o bs)).bytesAt i k (o + d) n = (bs.drop d).take n := by
  rw [← map_getD_range h, State.bytesAt]
  refine List.map_congr_left fun j hj => ?_
  have hj : j < n := List.mem_range.mp hj
  rw [byteAt_setStore_pokeAll hi hsorted, if_pos (by omega), show o + d + j - o = d + j by omega]

theorem respond_bytesAt (s : State) (resp : Response) (i : Nat) (k : RegionKind) (o n : Nat) :
    (s.respond resp).bytesAt i k o n = s.bytesAt i k o n := rfl

/-- Settles O32: the second access reads the store the first one wrote, at the difference of the addresses. -/
theorem mixedWidthReadsSeeTheWrittenBytes : Obligations.MixedWidthReadsSeeTheWrittenBytes := by
  intro s w w' a a' v i r hinv hp hi hc hk hlo hhi
  have hspan := (contains_iff r a w).mp hc
  have hc' : contains r a' w' = true := (contains_iff r a' w').mpr (by omega)
  have hoff : a'.toNat - r.base.toNat = a.toNat - r.base.toNat + (a'.toNat - a.toNat) := by omega
  have hlen := split_length s.cpuBe v w
  have hbytes := bytesAt_setStore_pokeAll (store_lt hinv hi) (hinv.stores_wf i r hi).1 .ram
    (o := a.toNat - r.base.toNat) (d := a'.toNat - a.toNat) (n := w'.bytes) (bs := split s.cpuBe v w) (by omega)
  refine ⟨_, _, exec_write_ram hp hinv.disjoint hi hc hk v,
    exec_read_storage (i := i) (r := r) hp hinv.disjoint hi hc' (.inr hk), ?_⟩
  rw [hk, hoff, respond_bytesAt, hbytes]
  refine ⟨rfl, ?_⟩
  rintro rfl rfl
  rw [Nat.sub_self, List.drop_zero, ← hlen, List.take_length, respond_out]
  exact congrArg (fun d => some ({ rdata := d } : Response)) (assemble_split s.cpuBe v _)

theorem invariantViolation_abort (h : s.cfg.invPolicy = .abort) (code : ErrorCode) (a : Addr) (w : Width) (dir : Dir)
    (i : Nat) : invariantViolation code a w dir i s = runtimeAbort (accessCause code a w dir (some i)) s := by
  simp only [invariantViolation, h]

theorem invariantViolation_degrade (h : s.cfg.invPolicy = .degrade) (code : ErrorCode) (a : Addr) (w : Width)
    (dir : Dir) (i : Nat) : invariantViolation code a w dir i s = s.respond {} := by
  simp only [invariantViolation, h]

/-- Settles O33: the write reaches the ROM's rejection, which INV_POLICY decides. -/
theorem writeOfRomIsIgnoredOrAborts : Obligations.WriteOfRomIsIgnoredOrAborts := by
  intro s w a v i r hp hd hi hc hk
  rw [exec_write_rom hp hd hi hc hk]
  refine ⟨fun hpol => ?_, fun hpol => ?_⟩
  · rw [invariantViolation_degrade hpol]
    rfl
  · rw [invariantViolation_abort hpol]
    rfl

end Sys2Proof.Machine
end

section
/-! SUPPORT. What an access to a device does at an offset its handler knows and at one it does not (43_mmio_dispatch
R177 to R188); the obligations about devices and the stub. -/

namespace Sys2Proof.Machine

variable {s : State} {w : Width} {a : Addr} {h : Handler} {id : HandlerId}

/-! ### DEV after a call (43_mmio_dispatch R177, R178) -/

theorem devState_setDev_self (s : State) (id : HandlerId) (d : DevState) : (s.setDev id d).devState id = d := by
  rw [State.devState, setDev_dev, get?_put_self, Option.getD_some]

theorem devState_setDev_ne (s : State) {id id' : HandlerId} (hne : id' ≠ id) (d : DevState) :
    (s.setDev id d).devState id' = s.devState id' := by
  rw [State.devState, setDev_dev, get?_put_ne _ _ fun heq => hne (BitVec.eq_of_toNat_eq heq), setDev_epoch,
    State.devState]

theorem keepDev_stateful (hs : h.stateless = false) (id : HandlerId) (d : DevState) (s : State) :
    keepDev h id d s = s.setDev id d :=
  if_neg (by simp [hs])

theorem keepDev_stateless (hs : h.stateless = true) (id : HandlerId) (d : DevState) (s : State) :
    keepDev h id d s = s :=
  if_pos hs

theorem keepDev_frame (h : Handler) (id : HandlerId) (d : DevState) (s : State) :
    keepDev h id d s = { s with dev := (keepDev h id d s).dev } := by
  rcases keepDev_cases h id d s with hk | ⟨_, hk⟩
  · rw [hk]
  · rw [hk, setDev_dev]
    rfl

theorem devState_keepDev_ne (h : Handler) {id id' : HandlerId} (hne : id' ≠ id) (d : DevState) (s : State) :
    (keepDev h id d s).devState id' = s.devState id' := by
  rcases keepDev_cases h id d s with hk | ⟨_, hk⟩
  · rw [hk]
  · rw [hk, devState_setDev_ne s hne d]

/-- What a call keeps of the device states, as R184 and log entry 15 put it. -/
theorem keepDev_spec (h : Handler) (id : HandlerId) (d : DevState) (s : State) :
    (h.stateless = false → (keepDev h id d s).devState id = d) ∧
      (h.stateless = true → (keepDev h id d s).dev = s.dev) ∧
      ∀ id', id' ≠ id → (keepDev h id d s).devState id' = s.devState id' :=
  ⟨fun hs => by rw [keepDev_stateful hs, devState_setDev_self], fun hs => by rw [keepDev_stateless hs],
    fun _ hne => devState_keepDev_ne h hne d s⟩

/-! ### `mmio_read` and `mmio_write` by what the handler knows (43_mmio_dispatch R185) -/

theorem adapt_zero (w : Width) (c b : ByteOrder) : adapt w (truncTo w 0) c b = 0 := by
  cases w <;> cases c <;> cases b <;> decide

/-- The adapter reads only the bytes of the width. -/
theorem adapt_truncTo (w : Width) (v : Data) (c b : ByteOrder) : adapt w (truncTo w v) c b = adapt w v c b := by
  rw [adapt, split_truncTo, adapt]

section calls

variable {o : Nat} {off : BitVec 32} (hoff : BitVec.ofNat 32 o = off) (be : ByteOrder) (name : String) (w : Width)
  (v : Data) (s : State)
include hoff

theorem mmioRead_unknown (hk : h.knows off = false) :
    mmioRead h id be name o w s = (s.logDiag { device := name, offset := off, dir := .read }).drive
      { response := some {}, devCalls := [{ handler := id, dir := .read, width := w, offset := off }] } := by
  simp only [mmioRead, devRead, hoff, hk, Bool.false_eq_true, if_false, adapt_zero]

theorem mmioWrite_unknown (hk : h.knows off = false) :
    mmioWrite h id be name o w v s = (s.logDiag { device := name, offset := off, dir := .write }).drive
      { response := some {}
        devCalls := [{ handler := id, dir := .write, width := w, offset := off, wdata := adapt w v s.cpuBe be }] } := by
  simp only [mmioWrite, devWrite, hoff, hk, Bool.false_eq_true, if_false]

theorem mmioRead_known (hk : h.knows off = true) :
    mmioRead h id be name o w s = (keepDev h id (h.read (s.devState id) off w).1 s).drive
      { response := some { rdata := adapt w (truncTo w (h.read (s.devState id) off w).2) s.cpuBe be }
        devCalls := [{ handler := id, dir := .read, width := w, offset := off,
                       rdata := (h.read (s.devState id) off w).2 }] } := by
  simp only [mmioRead, devRead, hoff, hk, if_true]

theorem mmioWrite_known (hk : h.knows off = true) :
    mmioWrite h id be name o w v s =
      (keepDev h id (h.write (s.devState id) off w (adapt w v s.cpuBe be)) s).drive
        { response := some {}
          devCalls := [{ handler := id, dir := .write, width := w, offset := off,
                         wdata := adapt w v s.cpuBe be }] } := by
  simp only [mmioWrite, devWrite, hoff, hk, if_true]

/-- A device with state holds what its `write` gave. -/
theorem mmioWrite_devState (hs : h.stateless = false) (hk : h.knows off = true) :
    (mmioWrite h id be name o w v s).devState id = h.write (s.devState id) off w (adapt w v s.cpuBe be) := by
  rw [mmioWrite_known hoff be name w v s hk]
  exact (keepDev_spec h id _ s).1 hs

end calls

/-! ### An access that lies in an MMIO Region -/

section device

variable {handlers : HandlerId → Option Handler} {i : Nat} {r : Region} {be : ByteOrder} (hp : s.phase = .run)
  (hd : DisjointSpans s.rt) (hi : s.rt[i]? = some r) (hc : contains r a w = true) (hk : r.kind = .mmio be id)
  (hid : handlers id = some h)
include hp hd hi hc hk hid

theorem accessWith_device_read (v : Data) :
    accessWith handlers .read w a v s = .next (mmioRead h id be r.name (a.toNat - r.base.toNat) w s) :=
  (accessWith_mmio v handlers hp hd hi hc hk).trans (mmioAccess_read be r.name _ w v s hid)

theorem accessWith_device_write (v : Data) :
    accessWith handlers .write w a v s = .next (mmioWrite h id be r.name (a.toNat - r.base.toNat) w v s) :=
  (accessWith_mmio v handlers hp hd hi hc hk).trans (mmioAccess_write be r.name _ w v s hid)

end device

/-- Settles O38: by direction, the call that `mmio_read` or `mmio_write` records, in the frame of either. -/
theorem mmioAccessMakesOneCallAndNeverFails : Obligations.MmioAccessMakesOneCallAndNeverFails := by
  intro hs s dir w a v i r be id h hp hd hi hc hk hid
  have hoff := ofNat_offset hc
  cases dir with
  | read =>
    exact ⟨_, _, accessWith_device_read hp hd hi hc hk hid v, mmioRead_frame h id be r.name _ w s, rfl, rfl, rfl, rfl,
      rfl, hoff, Nat.two_pow_pos _⟩
  | write =>
    exact ⟨_, _, accessWith_device_write hp hd hi hc hk hid v, mmioWrite_frame h id be r.name _ w v s, rfl, rfl, rfl,
      rfl, rfl, hoff, adapt_lt w v s.cpuBe be⟩

/-- Settles O40: by direction, the call at an offset the handler does not know. -/
theorem unknownOffsetIsDiagnosedOnly : Obligations.UnknownOffsetIsDiagnosedOnly := by
  intro hs s dir w a v i r be id h hp hd hi hc hk hid hknows
  have hoff := ofNat_offset hc
  cases dir with
  | read =>
    refine ⟨_, accessWith_device_read hp hd hi hc hk hid v, ?_⟩
    rw [mmioRead_unknown hoff be r.name w s hknows]
    exact ⟨rfl, rfl⟩
  | write =>
    refine ⟨_, accessWith_device_write hp hd hi hc hk hid v, ?_⟩
    rw [mmioWrite_unknown hoff be r.name w v s hknows]
    exact ⟨rfl, rfl⟩

/-- Settles O41: the call at a known offset, and what `keepDev` keeps of it. -/
theorem deviceReadIsCutAndAdapted : Obligations.DeviceReadIsCutAndAdapted := by
  intro hs s w a v i r be id h hp hd hi hc hk hid hknows
  refine ⟨_, accessWith_device_read hp hd hi hc hk hid v, ?_⟩
  rw [mmioRead_known (ofNat_offset hc) be r.name w s hknows, truncTo_eq_ofNat]
  exact ⟨congrArg (State.drive · _) (keepDev_frame h id _ s), rfl, rfl, keepDev_spec h id _ s⟩

/-- Settles O60: the call at a known offset, and what `keepDev` keeps of it. -/
theorem deviceWriteIsAdaptedAndKept : Obligations.DeviceWriteIsAdaptedAndKept := by
  intro hs s w a v i r be id h hp hd hi hc hk hid hknows
  refine ⟨_, accessWith_device_write hp hd hi hc hk hid v, ?_⟩
  rw [mmioWrite_known (ofNat_offset hc) be r.name w v s hknows]
  exact ⟨congrArg (State.drive · _) (keepDev_frame h id _ s), rfl, keepDev_spec h id _ s⟩

/-- Settles O42: the read gets the adapted value from the device, uncut since it fits the width, and adapts it back. -/
theorem deviceRoundTripReturnsTheWrittenValue : Obligations.DeviceRoundTripReturnsTheWrittenValue := by
  intro hs s w a v i r be id h hp hd hi hc hk hid hstate hknows hback
  have hoff := ofNat_offset hc
  have hwrite := accessWith_device_write hp hd hi hc hk hid v
  have hframe := mmioWrite_frame h id be r.name (a.toNat - r.base.toNat) w v s
  have hdev := mmioWrite_devState hoff be r.name w v s hstate hknows (id := id)
  generalize mmioWrite h id be r.name (a.toNat - r.base.toNat) w v s = t at hwrite hframe hdev
  have hphase : t.phase = .run := by rw [hframe, hp]
  have hrt : t.rt = s.rt := by rw [hframe]
  have hbe : t.cpuBe = s.cpuBe := by rw [hframe]
  refine ⟨t, _, hwrite, accessWith_device_read hphase (hrt ▸ hd) (hrt ▸ hi) hc hk hid 0, ?_⟩
  rw [mmioRead_known hoff be r.name w t hknows, drive_out, hdev, hbe, hback _ _ (adapt_lt w v s.cpuBe be),
    adapt_truncTo, adapt_adapt, truncTo_eq_ofNat]

/-! ### The stub (43_mmio_dispatch R186, R187) -/

theorem boundHandler_zero : boundHandler 0#8 = some stubHandler := if_pos rfl

/-- A read of a stub window is a read of an offset its handler does not know. -/
theorem exec_read_stub {i : Nat} {r : Region} {be : ByteOrder} (hp : s.phase = .run) (hd : DisjointSpans s.rt)
    (hi : s.rt[i]? = some r) (hc : contains r a w = true) (hk : r.kind = .mmio be 0#8) :
    exec (readCommand w a) s =
      .next ((s.logDiag { device := r.name, offset := a - r.base, dir := .read }).drive
        { response := some {}
          devCalls := [{ handler := 0#8, dir := .read, width := w, offset := a - r.base }] }) := by
  rw [exec_readCommand, accessWith_device_read hp hd hi hc hk boundHandler_zero 0,
    mmioRead_unknown (ofNat_offset hc) be r.name w s rfl]

/-- Settles O36: the stub knows no offset. -/
theorem stubReadReturnsZeroAndIsDiagnosed : Obligations.StubReadReturnsZeroAndIsDiagnosed :=
  fun _ _ _ _ _ _ hp hd hi hc hk => exec_read_stub hp hd hi hc hk

/-- Settles O37: the stub keeps nothing of the write, so the later read is a read of a stub window again. -/
theorem stubWriteIsDiscardedAndDiagnosed : Obligations.StubWriteIsDiscardedAndDiagnosed := by
  intro s w a v i r be hp hd hi hc hk
  have hwrite := mmioWrite_unknown (h := stubHandler) (id := 0#8) (ofNat_offset hc) be r.name w (truncTo w v) s rfl
  rw [adapt_truncTo] at hwrite
  refine ⟨_, ?_, rfl, fun w' hc' => ⟨_, exec_read_stub (i := i) (r := r) hp hd hi hc' hk, rfl⟩⟩
  rw [exec_writeCommand, accessWith_device_write hp hd hi hc hk boundHandler_zero, hwrite]
  rfl

end Sys2Proof.Machine
end

section
/-! SUPPORT. How a command leaves the machine when it answers a next state, said once of an access and once of every
command: it goes on, or it ends the machine (42_access R148, 60_exceptions R211 to R214). The obligations about errors,
phases and the whole machine are read off these; then those about one step and the IRQ table. -/

namespace Sys2Proof.Machine

variable {s t : State}

/-! ### Going on and ending -/

/-- A command that did not end the machine: what none of them changes, and what they may append. -/
structure GoesOn (s t : State) : Prop where
  cfg : t.cfg = s.cfg
  cause : t.cause = s.cause
  running : t.ended = false
  /-- PHASE stays, or takes one of the transitions of 10_state R26. -/
  phase : t.phase = s.phase ∨ s.phase.mayBecome t.phase = true
  /-- RT is appended to in BUILD only (10_state R29 (a), (c)). -/
  rt : t.rt = s.rt ∨ s.phase = .build ∧ ∃ e, t.rt = s.rt ++ [e]
  /-- DIAG gains one record at most (10_state R32). -/
  diag : t.diag = s.diag ∨ ∃ d, t.diag = s.diag ++ [d]
  response : t.out.response.isSome = true

/-- A command that ended the machine (60_exceptions R211 to R213). -/
structure Ends (s t : State) : Prop where
  frame : t = { s with cause := t.cause, phase := t.phase, out := t.out }
  code : t.cause.code.endsIn = some t.phase
  phase : s.phase.mayBecome t.phase = true
  /-- The out-of-bounds check never fires (42_access R151). -/
  inBounds : t.cause.code ≠ .outOfBounds
  response : t.out.response = some { err := t.cause.code }

namespace Ends

theorem startupFail (hp : s.phase = .build ∨ s.phase = .loaded) {c : Cause} (hc : c.code.endsIn = some .failed) :
    Ends s (startupFail c s) where
  frame := rfl
  code := hc
  phase := by rcases hp with hp | hp <;> rw [hp] <;> rfl
  inBounds heq := by
    rw [startupFail_cause] at heq
    rw [heq] at hc
    cases hc
  response := rfl

theorem runtimeAbort (hp : s.phase = .run) {c : Cause} (hc : c.code = .unmappedAccess ∨ c.code = .readOnlyViolation) :
    Ends s (runtimeAbort c s) where
  frame := rfl
  code := by rcases hc with hc | hc <;> rw [runtimeAbort_cause, hc] <;> rfl
  phase := by rw [hp]; rfl
  inBounds := by rcases hc with hc | hc <;> simp [hc]
  response := rfl

/-- Other ports may be driven beside the response (40_composition R114). -/
theorem drive (h : Ends s t) {o : Output} (ho : o.response = some { err := t.cause.code }) : Ends s (t.drive o) :=
  { h with frame := congrArg (State.drive · o) h.frame, response := ho }

end Ends

theorem running_of_phase (hp : t.phase = .build ∨ t.phase = .loaded ∨ t.phase = .run) : t.ended = false := by
  rcases hp with hp | hp | hp <;> simp [State.ended, hp]

/-! ### An access -/

/-- An access that did not abort (42_access R148). -/
structure Completes (s t : State) : Prop extends GoesOn s t where
  inRun : t.phase = .run
  err : t.out.response.map Response.err = some .none
  cpuStart : t.out.cpuStart = false

/-- An access leaves alone all but the stores, DEV, DIAG and the ports. -/
theorem Completes.of_frame (hp : s.phase = .run)
    (hframe : t = { s with stores := t.stores, dev := t.dev, diag := t.diag, out := t.out })
    (hdiag : t.diag = s.diag ∨ ∃ d, t.diag = s.diag ++ [d]) (herr : t.out.response.map Response.err = some .none)
    (hstart : t.out.cpuStart = false) : Completes s t where
  cfg := by rw [hframe]
  cause := by rw [hframe]
  running := running_of_phase (.inr (.inr (by rw [hframe, hp])))
  phase := .inl (by rw [hframe])
  rt := .inl (by rw [hframe])
  diag := hdiag
  response := by
    cases hr : t.out.response with
    | none => simp [hr] at herr
    | some _ => rfl
  inRun := by rw [hframe, hp]
  err := herr
  cpuStart := hstart

theorem Completes.respond (hp : s.phase = .run) {r : Response} (hr : r.err = .none) : Completes s (s.respond r) :=
  .of_frame hp rfl (.inl rfl) (congrArg some hr) rfl

theorem devRead_diag (h : Handler) (id : HandlerId) (name : String) (off : BitVec 32) (w : Width) (s : State) :
    (devRead h id name off w s).1.diag = s.diag ∨ ∃ d, (devRead h id name off w s).1.diag = s.diag ++ [d] := by
  rcases devRead_state_cases h id name off w s with hd | ⟨d, hd⟩ | hd <;> rw [hd]
  · exact .inl rfl
  · exact .inl rfl
  · exact .inr ⟨_, rfl⟩

theorem devWrite_diag (h : Handler) (id : HandlerId) (name : String) (off : BitVec 32) (w : Width) (hv : Data)
    (s : State) :
    (devWrite h id name off w hv s).diag = s.diag ∨ ∃ d, (devWrite h id name off w hv s).diag = s.diag ++ [d] := by
  rcases devWrite_cases h id name off w hv s with hd | ⟨d, hd⟩ | hd <;> rw [hd]
  · exact .inl rfl
  · exact .inl rfl
  · exact .inr ⟨_, rfl⟩

theorem mmioRead_completes (hp : s.phase = .run) (h : Handler) (id : HandlerId) (be : ByteOrder) (name : String)
    (o : Nat) (w : Width) : Completes s (mmioRead h id be name o w s) :=
  .of_frame hp (by rw [mmioRead_frame]) (devRead_diag h id name _ w s) rfl rfl

theorem mmioWrite_completes (hp : s.phase = .run) (h : Handler) (id : HandlerId) (be : ByteOrder) (name : String)
    (o : Nat) (w : Width) (v : Data) : Completes s (mmioWrite h id be name o w v s) :=
  .of_frame hp (by rw [mmioWrite_frame]) (devWrite_diag h id name _ w _ s) rfl rfl

/-- An access that ended the machine, and the strap that made it (42_access R147, R152). -/
def Aborts (s t : State) : Prop :=
  ∃ c, t = runtimeAbort c s ∧ (c.code = .unmappedAccess ∧ s.cfg.unmappedPolicy = .abort ∨
    c.code = .readOnlyViolation ∧ s.cfg.invPolicy = .abort)

theorem Aborts.ends (hp : s.phase = .run) (h : Aborts s t) : Ends s t := by
  obtain ⟨c, rfl, ⟨hc, _⟩ | ⟨hc, _⟩⟩ := h
  · exact .runtimeAbort hp (.inl hc)
  · exact .runtimeAbort hp (.inr hc)

theorem unmappedAccess_outcome (hp : s.phase = .run) (dir : Dir) (w : Width) (a : Addr) :
    Completes s (unmappedAccess dir w a s) ∨ Aborts s (unmappedAccess dir w a s) := by
  cases hpol : s.cfg.unmappedPolicy with
  | abort => exact .inr ⟨_, unmappedAccess_abort dir w a hpol, .inl ⟨rfl, hpol⟩⟩
  | degrade =>
    left
    cases dir with
    | read => exact unmappedAccess_read_degrade w a hpol ▸ .respond hp rfl
    | write => exact unmappedAccess_write_degrade w a hpol ▸ .respond hp rfl

theorem readOnlyViolation_outcome (hp : s.phase = .run) (a : Addr) (w : Width) (dir : Dir) (i : Nat) :
    Completes s (invariantViolation .readOnlyViolation a w dir i s) ∨
      Aborts s (invariantViolation .readOnlyViolation a w dir i s) := by
  cases hpol : s.cfg.invPolicy with
  | abort => exact .inr ⟨_, invariantViolation_abort hpol _ a w dir i, .inr ⟨rfl, hpol⟩⟩
  | degrade => exact .inl (invariantViolation_degrade hpol .readOnlyViolation a w dir i ▸ .respond hp rfl)

theorem storageAccess_outcome (hp : s.phase = .run) {dir : Dir} {i : Nat} {r : Region} {o : Nat} {w : Width}
    {a : Addr} (hr : resolve s.rt a w dir = .mapped i r o) (v : Data) :
    Completes s (storageAccess dir i r o w v a s) ∨ Aborts s (storageAccess dir i r o w v a s) := by
  have hfits := resolve_mapped_fits hr
  cases dir with
  | read =>
    rw [storageAccess, regionRead_fits a s hfits]
    exact .inl (.respond hp rfl)
  | write =>
    rw [storageAccess, regionWrite_fits v a s hfits]
    split
    · exact readOnlyViolation_outcome hp _ _ _ _
    · exact .inl (.of_frame hp rfl (.inl rfl) rfl rfl)

/-- Every access that answers a next state completes or aborts, whatever the handlers are (42_access R148). -/
theorem accessWith_outcome {handlers : HandlerId → Option Handler} {dir : Dir} {w : Width} {a : Addr} {v : Data}
    (h : accessWith handlers dir w a v s = .next t) : Completes s t ∨ Aborts s t := by
  obtain ⟨hp, ⟨_, rfl⟩ | ⟨i, r, o, hr, _, rfl⟩ |
    ⟨i, r, o, be, id, hd, _, _, _, ⟨_, rfl⟩ | ⟨_, rfl⟩⟩⟩ := accessWith_next h
  · exact unmappedAccess_outcome hp dir w a
  · exact storageAccess_outcome hp hr v
  · exact .inl (mmioRead_completes hp hd id be r.name o w)
  · exact .inl (mmioWrite_completes hp hd id be r.name o w v)

/-- Settles O45: an access completes or aborts, and an abort names the strap that made it. -/
theorem accessCompletesOrEndsTheMachine : Obligations.AccessCompletesOrEndsTheMachine := by
  intro s t dir w a v h
  have haccess : ∃ v', accessWith boundHandler dir w a v' s = .next t := by
    cases dir with
    | read => exact ⟨0, (exec_readCommand w a s).symm.trans h⟩
    | write => exact ⟨truncTo w v, (exec_writeCommand w a v s).symm.trans h⟩
  obtain ⟨v', h⟩ := haccess
  rcases accessWith_outcome h with hc | ⟨c, rfl, ⟨hcode, hpol⟩ | ⟨hcode, hpol⟩⟩
  · exact .inl ⟨hc.inRun, hc.cause, hc.err⟩
  · exact .inr ⟨rfl, rfl, by simp [hcode], .inr hpol⟩
  · exact .inr ⟨rfl, rfl, by simp [hcode], .inl hpol⟩

/-! ### The value of a read -/

theorem unmappedAccess_read_rdata {w : Width} {a : Addr} {resp : Response}
    (h : (unmappedAccess .read w a s).out.response = some resp) : resp.rdata.toNat < 2 ^ (8 * w.bytes) := by
  cases hpol : s.cfg.unmappedPolicy with
  | abort =>
    rw [unmappedAccess_abort .read w a hpol] at h
    cases h
    exact Nat.two_pow_pos _
  | degrade =>
    rw [unmappedAccess_read_degrade w a hpol] at h
    cases h
    exact truncTo_lt w _

/-- Settles O43: the fill is cut, the bytes of storage are as many as the width, the adapter's value fits. -/
theorem readValueFitsItsWidth : Obligations.ReadValueFitsItsWidth := by
  intro s t w a resp h hresp
  rw [exec_readCommand] at h
  obtain ⟨_, ⟨_, rfl⟩ | ⟨i, r, o, hr, _, rfl⟩ |
    ⟨i, r, o, be, id, hd, _, _, _, ⟨_, rfl⟩ | ⟨hdir, _⟩⟩⟩ := accessWith_next h
  · exact unmappedAccess_read_rdata hresp
  · rw [storageAccess, regionRead_fits a s (resolve_mapped_fits hr)] at hresp
    cases hresp
    have hlen := bytesAt_length s i r.kind o w.bytes
    have hlt := assemble_lt s.cpuBe (hlen ▸ width_bytes_le w)
    rwa [hlen] at hlt
  · cases hresp
    exact adapt_lt w _ s.cpuBe be
  · cases hdir

/-! ### Every command -/

theorem GoesOn.respond (hp : s.phase = .build ∨ s.phase = .loaded ∨ s.phase = .run) (r : Response) :
    GoesOn s (s.respond r) :=
  ⟨rfl, rfl, running_of_phase hp, .inl rfl, .inl rfl, .inl rfl, rfl⟩

theorem mapWith_outcome {handlers : HandlerId → Option Handler} {e : Region} (h : mapWith handlers e s = .next t) :
    GoesOn s t ∨ Ends s t := by
  obtain ⟨hp, _, ⟨j, _, rfl⟩ | ⟨_, _, rfl⟩⟩ := mapWith_next h
  · exact .inr (.startupFail (.inl hp) rfl)
  · exact .inl ⟨rfl, rfl, running_of_phase (.inl hp), .inl rfl, .inr ⟨hp, e, rfl⟩, .inl rfl, rfl⟩

theorem execCpuinit_outcome {variant : BitVec 8} {be : ByteOrder} {vec cpuOk : Bool}
    (h : execCpuinit variant be vec cpuOk s = .next t) : GoesOn s t ∨ Ends s t := by
  obtain ⟨hp, _, ⟨_, rfl⟩ | ⟨_, rfl⟩⟩ := execCpuinit_next h
  · exact .inl ⟨rfl, rfl, running_of_phase (hp.imp_right .inl), .inl rfl, .inl rfl, .inl rfl, rfl⟩
  · exact .inr ((Ends.startupFail hp rfl).drive rfl)

theorem execSeed_outcome {image : Option (List Byte)} (h : execSeed image s = .next t) : GoesOn s t ∨ Ends s t := by
  obtain ⟨hp, i, r, _, ⟨_, rfl⟩ | ⟨bytes, _, rfl⟩⟩ := execSeed_next h
  · exact .inr (.startupFail (.inl hp) rfl)
  · unfold seedImage
    split
    · exact .inr (.startupFail (.inl hp) rfl)
    · exact .inl ⟨rfl, rfl, rfl, .inr (by rw [hp]; rfl), .inl rfl, .inl rfl, rfl⟩

theorem execStart_outcome (h : execStart s = .next t) : GoesOn s t := by
  obtain ⟨hp, _, rfl⟩ := execStart_next h
  exact ⟨rfl, rfl, rfl, .inr (by rw [hp]; rfl), .inl rfl, .inl rfl, rfl⟩

/-- Every command that answers a next state lets the machine go on or ends it. -/
theorem exec_outcome {i : Instr} (h : exec i s = .next t) : GoesOn s t ∨ Ends s t := by
  rcases exec_next h with ⟨dir, w, a, v, h⟩ | ⟨dir, w, a, h⟩ | ⟨e, h⟩ | ⟨variant, be, vec, cpuOk, h⟩ | ⟨image, h⟩ | h
  · exact (accessWith_outcome h).imp (·.toGoesOn) (·.ends (accessWith_next h).1)
  · obtain ⟨hp, rfl⟩ := execResolve_next h
    exact .inl (.respond hp _)
  · exact mapWith_outcome h
  · exact execCpuinit_outcome h
  · exact execSeed_outcome h
  · exact .inl (execStart_outcome h)

/-- Settles O46: a command that goes on keeps CAUSE, and one that ends the machine gives another code. -/
theorem outOfBoundsNeverHappens : Obligations.OutOfBoundsNeverHappens := by
  intro s t i h hcode
  rcases exec_outcome h with hgo | hend
  · rwa [hgo.cause] at hcode
  · exact absurd hcode hend.inBounds

/-- Settles O47: a command that goes on is in no ended phase. -/
theorem failingCommandChangesOnlyCauseAndPhase : Obligations.FailingCommandChangesOnlyCauseAndPhase := by
  intro s t i h hended
  rcases exec_outcome h with hgo | hend
  · rw [hgo.running] at hended
    cases hended
  · exact ⟨hend.frame, hend.code, hend.response⟩

/-- Settles O51: both for a command that goes on and for one that ends the machine. -/
theorem tableAndLogAreAppendOnly : Obligations.TableAndLogAreAppendOnly := by
  intro s t i h
  rcases exec_outcome h with hgo | hend
  · exact ⟨hgo.cfg, hgo.rt, hgo.diag⟩
  · rw [hend.frame]
    exact ⟨rfl, .inl rfl, .inl rfl⟩

/-- A command that its phase does not list is refused (10_state R26). -/
theorem exec_refused_of_not_accepts {i : Instr} (h : s.phase.accepts i = false) :
    exec i s = .refused (.notAccepted s.phase) := by
  cases i with
  | read8 a | read16 a | read32 a | read64 a | write8 a v | write16 a v | write32 a v | write64 a v =>
    exact accessWith_refused _ _ _ _ _ fun hp => by simp [hp, Phase.accepts] at h
  | resolve dir w a => exact if_neg fun hp => by rcases hp with hp | hp | hp <;> simp [hp, Phase.accepts] at h
  | map name base size kind => exact if_neg fun hp => by simp [hp, Phase.accepts] at h
  | cpuinit variant be vec ok => exact if_neg fun hp => by rcases hp with hp | hp <;> simp [hp, Phase.accepts] at h
  | seed image => exact if_neg fun hp => by simp [hp, Phase.accepts] at h
  | start => exact if_neg fun hp => by simp [hp, Phase.accepts] at h

/-- Settles O49: refusal by `exec_refused_of_not_accepts`, the transitions by `exec_outcome`. -/
theorem phaseDecidesWhatIsAccepted : Obligations.PhaseDecidesWhatIsAccepted := by
  intro s i
  refine ⟨exec_refused_of_not_accepts, fun t h => ⟨?_, ?_⟩⟩
  · by_contra hnot
    rw [exec_refused_of_not_accepts (Bool.eq_false_of_not_eq_true hnot)] at h
    cases h
  · exact (exec_outcome h).elim (·.phase) fun hend => .inr hend.phase

theorem accepts_eq_false_of_ended (h : s.ended = true) (i : Instr) : s.phase.accepts i = false := by
  rcases ended_eq_true_iff.mp h with hp | hp
  · rw [hp]
    cases i <;> rfl
  · rw [hp]
    cases i <;> rfl

/-- Settles O48: of a step's three ways, the command is refused. -/
theorem endedMachineIsLeftOnlyByReset : Obligations.EndedMachineIsLeftOnlyByReset := by
  intro s hended
  have hrefused (i : Instr) : exec i s = .refused (.notAccepted s.phase) :=
    exec_refused_of_not_accepts (accepts_eq_false_of_ended hended i)
  refine ⟨hrefused, fun t h => ?_⟩
  rcases step_next h with ⟨_, rfl⟩ | ⟨straps, rest, hin, rfl⟩ | ⟨f, rest, i, _, _, hexec⟩
  · exact .inl rfl
  · exact .inr ⟨straps, rest, hin, rfl⟩
  · rw [exec_refused_of_not_accepts (accepts_eq_false_of_ended (s := { s with input := rest }) hended i)] at hexec
    cases hexec

/-! ### The response, and the pulse of `cpu_start` -/

theorem accessWith_cpuStart {handlers : HandlerId → Option Handler} {dir : Dir} {w : Width} {a : Addr} {v : Data}
    (h : accessWith handlers dir w a v s = .next t) : t.out.cpuStart = false := by
  rcases accessWith_outcome h with hc | ⟨c, rfl, _⟩
  · exact hc.cpuStart
  · rfl

/-- No command but START pulses `cpu_start` (40_composition R117). -/
theorem exec_cpuStart {i : Instr} (h : exec i s = .next t) (hi : i ≠ .start) : t.out.cpuStart = false := by
  cases i with
  | read8 a | read16 a | read32 a | read64 a | write8 a v | write16 a v | write32 a v | write64 a v =>
    exact accessWith_cpuStart h
  | resolve dir w a =>
    obtain ⟨_, rfl⟩ := execResolve_next h
    rfl
  | map name base size kind =>
    obtain ⟨_, _, ⟨j, _, rfl⟩ | ⟨_, _, rfl⟩⟩ := mapWith_next (e := ⟨name, base, size, kind⟩) h <;> rfl
  | cpuinit variant be vec ok =>
    obtain ⟨_, _, ⟨_, rfl⟩ | ⟨_, rfl⟩⟩ := execCpuinit_next h <;> rfl
  | seed image =>
    obtain ⟨_, i, r, _, ⟨_, rfl⟩ | ⟨bytes, _, rfl⟩⟩ := execSeed_next h
    · rfl
    · unfold seedImage
      split <;> rfl
  | start => exact absurd rfl hi

/-- Settles O52: the response by `exec_outcome`, the pulse by whether the command is START. -/
theorem everyNextStateCarriesAResponse : Obligations.EveryNextStateCarriesAResponse := by
  intro s t i h
  constructor
  · exact (exec_outcome h).elim (·.response) fun hend => by rw [hend.response]; rfl
  · intro hpulse
    by_cases hi : i = .start
    · subst hi
      obtain ⟨hp, hready, rfl⟩ := execStart_next h
      exact ⟨rfl, hp, hready, rfl⟩
    · rw [exec_cpuStart h hi] at hpulse
      cases hpulse

/-! ### One step -/

theorem step_command {f : Frame} {rest : List Stimulus} (hin : s.input = .command f :: rest) {i : Instr}
    (hd : decode f = .ok i) : step s = exec i { s with input := rest } := by
  simp only [step, nextStimulus, hin, hd]

theorem step_undecodable {f : Frame} {rest : List Stimulus} (hin : s.input = .command f :: rest) {e : DecodeError}
    (hd : decode f = .error e) : step s = .refused (.undecodable e) := by
  simp only [step, nextStimulus, hin, hd]

theorem step_rst {straps : BitVec 66} {rest : List Stimulus} (hin : s.input = .rst straps :: rest) :
    step s = .next (State.afterReset straps (s.epoch + 1) rest) := by
  simp only [step, nextStimulus, hin, resetNow]

theorem step_idle (hin : s.input = []) : step s = .next s := by
  simp only [step, nextStimulus, hin]

/-- Settles O53: `step` takes the frame off the list and decodes it. -/
theorem stepRunsTheDecodedCommand : Obligations.StepRunsTheDecodedCommand := fun _ _ _ _ hin hd => step_command hin hd

/-- Settles O54: `step` by what stands first in the list. -/
theorem stepRefusesReservedAndIdles : Obligations.StepRefusesReservedAndIdles := fun _ =>
  ⟨fun _ _ _ hin hd => step_undecodable hin hd, step_idle⟩

theorem ofBit_eq_abort_iff (b : Bool) : Policy.ofBit b = .abort ↔ b = true := by
  cases b <;> simp [Policy.ofBit]

/-- Settles O55: the step answers `State.afterReset`, whose fields are read off. -/
theorem rstDiscardsAllState : Obligations.RstDiscardsAllState := by
  intro s straps rest hin
  exact ⟨_, step_rst hin, rfl, rfl, rfl, rfl, rfl, rfl, rfl, ofBit_eq_abort_iff _, ofBit_eq_abort_iff _, rfl, rfl, rfl,
    rfl⟩

/-! ### The IRQ table -/

/-- Settles O59: the table is a constant, read row by row. -/
theorem irqTableNamesFifteenLines : Obligations.IrqTableNamesFifteenLines := by
  refine ⟨rfl, by decide, fun src => ?_, by decide⟩
  cases src <;> rfl

end Sys2Proof.Machine
end
